-- ==== Sys2Proof/Word.lean ====
section
/-! DEFINITION. The plainest data of the block (00_scope.md R9): the byte, and the rest is natural numbers. -/

namespace Sys2Proof

/-- One byte: a channel intensity 0..255, or one byte of a byte-addressed space (20_memory.md R60). -/
abbrev Byte := BitVec 8

end Sys2Proof
end

