-- ==== Sys2Proof/Config.lean ====
section
/-! DEFINITION. What the spec leaves to an implementation or to the environment: the build-time parameters
(00_scope.md R8) and the free values (opaque constants, no proof can see a value of them). -/

namespace Sys2Proof

/-- PLANE_ORDER (00_scope.md R8, 42_bitplane_encoder.md R174). -/
inductive PlaneOrder where
  | lsbFirst
  | msbFirst
deriving DecidableEq, Repr

/-- The device's answer to one line write (43_output_scheduler.md R195). -/
inductive Answer where
  | ok
  | fail
deriving DecidableEq, Repr, Inhabited

/-- Which agent moves next (00_scope.md R11). The device only answers, so it has no turn of its own. -/
inductive Turn where
  /-- The host issues its next command, or returns from `stop()`. -/
  | host
  /-- The scheduler performs its enabled micro-step, or waits. -/
  | scheduler
  /-- The host allocates a framebuffer `w` by `h` (10_state.md R29, 70_reset_and_hazards.md R283): an act on its own memory,
  no operation of the block (log 13). -/
  | hostAllocates (w h : Nat)
  /-- The host ends, normally or not, without a further command (44_driver_commands.md R239). -/
  | hostEnds
deriving DecidableEq, Repr, Inhabited

/-- The build-time parameters of R8, the same for every instance of one implementation. `none` for `nlines` is
the default NSIG; `none` for a bound is "unbounded" (92_eei_decisions.md D29). T_UNIT is read by no rule and is not
held (log 2). DESIGN CHOICE (log 1, safe): they stand in State, where no step writes them, so that a statement about
every state is a statement about every build. -/
structure BuildParams where
  depth : Nat := 8
  planeOrder : PlaneOrder := .lsbFirst
  tSetup : Nat := 0
  nlines : Option Nat := none
  maxWidth : Option Nat := none
  maxHeight : Option Nat := none
  maxAddr : Option Nat := none
  maxShowcnt : Option Nat := none
deriving DecidableEq, Repr

/-- Free value: the device's n-th answer that State does not list (R195, log 4, safe). -/
opaque Config.freeAnswer : Nat → Answer

/-- Free value: whose turn it is once State's list of turns is used up (R11, log 3, safe). -/
opaque Config.freeTurn : Nat → Turn

/-- Free value: the byte an FB address holds before the host writes it, for the n-th framebuffer the host hands
over (10_state.md R29, 93_implementation_defined.md U13, log 11, safe). -/
opaque Config.freeFbByte : Nat → Nat → Byte

end Sys2Proof
end

