-- ==== Sys2Proof/Syntax.lean ====
section
/-! DEFINITION. The operations of the block as syntax: one constructor of `Instr` per row of
spec/opcode_table.json, and the enumerations and records their operands are made of. -/

namespace Sys2Proof

/-- ORIENT (30_encoding.md R99), in the order of its codes 0..3. -/
inductive Orient where
  | normal
  | r90
  | r180
  | r270
deriving DecidableEq, Repr

/-- FORMAT (30_encoding.md R98), in the order of its codes 0..2; code 3 is no format. -/
inductive Format where
  | rgb565
  | rgb888
  | rgb888Packed
deriving DecidableEq, Repr

/-- The scheduler's four states (10_state.md R24, 30_encoding.md R100), in the order of their codes 0..3. -/
inductive Fsm where
  | idle
  | streamingFrame
  | rowAdvance
  | planeAdvance
deriving DecidableEq, Repr

/-- LIFE (10_state.md R23, 30_encoding.md R100), in the order of its codes 0..2; code 3 is never produced. -/
inductive Life where
  | unconstructed
  | constructed
  | stopped
deriving DecidableEq, Repr

/-- Return codes and the contents of ERR (60_exceptions.md R250), in the order of their codes 0..4; 5 to 7 are
never produced. Code 0 is `OK` as a return code and `None` in ERR (10_state.md R26). -/
inductive ErrCode where
  | ok
  | invalidGeometry
  | unsupportedFormat
  | geometryMismatch
  | deviceError
deriving DecidableEq, Repr

/-- Status of a TRACE entry (30_encoding.md R100), in the order of its codes 0..2. -/
inductive Status where
  | ok
  | fail
  | forced
deriving DecidableEq, Repr

/-- The two field widths the scaling functions take (41_pixel_formats.md R142, R146). -/
inductive FieldWidth where
  | five
  | six
deriving DecidableEq, Repr

/-- A canonical pixel, format PIX888 (30_encoding.md R90). -/
structure Pixel where
  r8 : Byte
  g8 : Byte
  b8 : Byte
deriving DecidableEq, Repr

/-- The three plane bits of one lane in a data word (30_encoding.md R95). -/
structure LaneBits where
  r : Bool
  g : Bool
  b : Bool
deriving DecidableEq, Repr

/-- A logical signal record (30_encoding.md R96), the fields of OUT (10_state.md R28). ADDR has N_ADDR bits and DATA
NDATA bits, widths that CFG fixes, so both are naturals (log 24). -/
structure Sig where
  clk : Bool
  lat : Bool
  addr : Nat
  data : Nat
deriving DecidableEq, Repr

/-- A pinout table (30_encoding.md R97): the physical line of each logical signal. Entry `k` of `addr` is
PIN_ADDR[k]; entry `3*l + ch` of `data` is PIN_DATA[l][ch]. -/
structure Pinout where
  clk : Nat
  lat : Nat
  addr : List Nat
  data : List Nat
deriving DecidableEq, Repr

/-- CONSTRUCT's pinout operand: a table or "default" (44_driver_commands.md R232). -/
inductive PinoutArg where
  | default
  | table (p : Pinout)
deriving DecidableEq, Repr

/-- The operations (30_encoding.md R102 and spec/opcode_table.json, row by row). -/
inductive Instr where
  -- host commands (44_driver_commands.md)
  | construct (fbW fbH : Nat) (width height : Int) (nAddr : Nat) (orient : Orient) (mirror : Bool)
      (pinout : PinoutArg) (colorspace : Nat)
  | showFrame
  | stopReq
  | stopAck
  | poll
  | fbwrite (x y ch : Nat) (v : Byte)
  | fbread (x y ch : Nat)
  | cmdReserved6
  | cmdReserved7
  -- geometry (40_geometry.md)
  | geom (width height : Int) (nAddr : Nat) (orient : Orient) (mirror : Bool)
  | ori (x y : Nat)
  | split (px py : Nat)
  | map (x y : Nat)
  | unmap (a l c : Nat)
  -- pixel formats (41_pixel_formats.md)
  | down (v : Byte) (n : FieldWidth)
  | up (q : Nat) (n : FieldWidth)
  | pack565 (r8 g8 b8 : Byte)
  | unpack565 (w16 : BitVec 16)
  | pack888 (r8 g8 b8 : Byte)
  | unpack888 (rp gp bp : Byte)
  | pack888p (r8 g8 b8 : Byte)
  | unpack888p (w24 : BitVec 24)
  | packframe (frame : List Byte)
  | unpackframe (pk : List Byte)
  -- bit-plane encoder (42_bitplane_encoder.md)
  | bit (e8 : Byte) (i : Nat)
  | encode (u : List Byte)
  | dur (i : Nat)
  | planeidx (k : Nat)
  -- output scheduler (43_output_scheduler.md, 60_exceptions.md)
  | lineWrite (sig : Sig) (dur : Nat)
  | schedStart
  | schedTake
  | schedSelect
  | schedData
  | schedClock
  | schedLatch
  | schedHold
  | schedRowadv
  | schedPlaneadv
  | stopentry
  | trapDeverr
  | forcesafe
  -- data formats and enumerations (30_encoding.md)
  | fmtPix888 (r8 g8 b8 : Byte)
  | fmtRgb565 (r5 : BitVec 5) (g6 : BitVec 6) (b5 : BitVec 5)
  | fmtRgb888 (v : Byte)
  | fmtRgb888packed (r8 g8 b8 : Byte)
  | fmtDw (lanes : List LaneBits)
  | fmtLw (sig : Sig)
  | fmtGpio (sig : Sig)
  | enumErr (e : ErrCode)
  | enumFsm (f : Fsm)
  | enumTrace (sig : Sig) (dur : Nat) (status : Status)
deriving DecidableEq, Repr

/-- The encoding spaces a word can be read in. A host command starts with the 3-bit CMD (R102); the others hold format
words and enumeration codes, which are data and carry no tag (R94), so the space says how to read them (log 7). -/
inductive Space where
  | command
  | pix888
  | rgb565
  | rgb888
  | rgb888Packed
  | errCode
  | fsmCode
deriving DecidableEq, Repr

/-- One word at the host port: the space it is read in and its bytes, lowest address first. -/
structure Parcel where
  space : Space
  bytes : List Byte
deriving DecidableEq, Repr

end Sys2Proof
end

