-- ==== Sys2Proof/WellFormed.lean ====
section
/-! DEFINITION. Which instructions are well formed: the operand ranges the spec states without looking at the state.
Ranges that CFG, FB_W, FB_H or B fix are checked by the meanings. -/

namespace Sys2Proof

/-- The lines a pinout table names, in the order of the logical line word (30_encoding.md R96, R97). -/
def Pinout.lines (p : Pinout) : List Nat := p.data ++ p.addr ++ [p.lat, p.clk]

/-- The width in bits of a scaling field. -/
def FieldWidth.bits : FieldWidth → Nat
  | .five => 5
  | .six => 6

/-- A pinout operand gives no two signals one line (R97, U7). -/
def PinoutArg.injective : PinoutArg → Bool
  | .default => true
  | .table p => decide p.lines.Nodup

/-- The static operand checks, constructor by constructor. -/
def Instr.wf : Instr → Bool
  | .construct _ _ _ _ _ _ _ pinout _ => pinout.injective
  | .showFrame => true
  | .stopReq => true
  | .stopAck => true
  | .poll => true
  | .fbwrite _ _ ch _ => decide (ch ≤ 2)
  | .fbread _ _ ch => decide (ch ≤ 2)
  | .cmdReserved6 => true
  | .cmdReserved7 => true
  | .geom _ _ _ _ _ => true
  | .ori _ _ => true
  | .split _ _ => true
  | .map _ _ => true
  | .unmap _ _ _ => true
  | .down _ _ => true
  | .up q n => decide (q < 2 ^ n.bits)
  | .pack565 _ _ _ => true
  | .unpack565 _ => true
  | .pack888 _ _ _ => true
  | .unpack888 _ _ _ => true
  | .pack888p _ _ _ => true
  | .unpack888p _ => true
  | .packframe frame => decide (frame.length % 3 = 0)
  | .unpackframe _ => true
  | .bit _ i => decide (i < 8)
  | .encode u => decide (u.length % 3 = 0)
  | .dur i => decide (i < 8)
  | .planeidx k => decide (k < 8)
  | .lineWrite _ _ => true
  | .schedStart => true
  | .schedTake => true
  | .schedSelect => true
  | .schedData => true
  | .schedClock => true
  | .schedLatch => true
  | .schedHold => true
  | .schedRowadv => true
  | .schedPlaneadv => true
  | .stopentry => true
  | .trapDeverr => true
  | .forcesafe => true
  | .fmtPix888 _ _ _ => true
  | .fmtRgb565 _ _ _ => true
  | .fmtRgb888 _ => true
  | .fmtRgb888packed _ _ _ => true
  | .fmtDw lanes => !lanes.isEmpty
  | .fmtLw _ => true
  | .fmtGpio _ => true
  | .enumErr _ => true
  | .enumFsm _ => true
  | .enumTrace _ _ _ => true

/-- The instruction is well formed. -/
abbrev Instr.WellFormed (i : Instr) : Prop := i.wf = true

end Sys2Proof
end

