-- ==== Sys2Proof/Decode.lean ====
section
/-! DEFINITION. Decoding: the codes of the enumerations (30_encoding.md R98 to R100, 60_exceptions.md R250), the decoder of
words at the host port (R102 and the format words R90 to R93), the selection of a scheduler micro-step by its
position (R102), and after them the encoder. The 3-bit CMD and the format words are the spec's; the bytes that carry
a command's operands are the model's own (log 6). -/

namespace Sys2Proof

/-! ### Codes of the enumerations -/

/-- ORIENT codes (R99). -/
def Orient.code : Orient → BitVec 2
  | .normal => 0
  | .r90 => 1
  | .r180 => 2
  | .r270 => 3

/-- ORIENT from its code; all four are defined (R99). -/
def Orient.ofCode (c : Nat) : Option Orient :=
  match c with
  | 0 => some .normal
  | 1 => some .r90
  | 2 => some .r180
  | 3 => some .r270
  | _ => none

/-- FORMAT codes (R98). -/
def Format.code : Format → BitVec 2
  | .rgb565 => 0
  | .rgb888 => 1
  | .rgb888Packed => 2

/-- FORMAT from a colorspace code; 3 and anything above is outside the enumerated set (R98, R103). -/
def Format.ofCode (c : Nat) : Option Format :=
  match c with
  | 0 => some .rgb565
  | 1 => some .rgb888
  | 2 => some .rgb888Packed
  | _ => none

/-- FSM codes (R100). -/
def Fsm.code : Fsm → BitVec 2
  | .idle => 0
  | .streamingFrame => 1
  | .rowAdvance => 2
  | .planeAdvance => 3

/-- FSM from its code (R100). -/
def Fsm.ofCode (c : Nat) : Option Fsm :=
  match c with
  | 0 => some .idle
  | 1 => some .streamingFrame
  | 2 => some .rowAdvance
  | 3 => some .planeAdvance
  | _ => none

/-- LIFE codes (R100); 3 is never produced. -/
def Life.code : Life → BitVec 2
  | .unconstructed => 0
  | .constructed => 1
  | .stopped => 2

/-- PLANE_ORDER codes (R100). -/
def PlaneOrder.code : PlaneOrder → BitVec 1
  | .lsbFirst => 0
  | .msbFirst => 1

/-- Status codes of TRACE entries (R100). -/
def Status.code : Status → BitVec 2
  | .ok => 0
  | .fail => 1
  | .forced => 2

/-- Return codes and ERR codes (60_exceptions.md R250); 5 to 7 are never produced. -/
def ErrCode.code : ErrCode → BitVec 3
  | .ok => 0
  | .invalidGeometry => 1
  | .unsupportedFormat => 2
  | .geometryMismatch => 3
  | .deviceError => 4

/-- A return code from its number (R250). -/
def ErrCode.ofCode (c : Nat) : Option ErrCode :=
  match c with
  | 0 => some .ok
  | 1 => some .invalidGeometry
  | 2 => some .unsupportedFormat
  | 3 => some .geometryMismatch
  | 4 => some .deviceError
  | _ => none

/-! ### Reading operands -/

/-- Why bytes are no word of their space. -/
inductive DecodeError where
  /-- The bytes end before the word does. -/
  | truncated
  /-- A command byte with a bit above the 3-bit CMD set. -/
  | highBits
  /-- A natural operand spelled with a redundant last byte. -/
  | overlong
  /-- An orientation, mirror or pinout selector outside its codes. -/
  | badSelector
  /-- An enumeration code that is reserved or does not fit its width. -/
  | reservedCode
deriving DecidableEq, Repr

/-- One byte. -/
def readByte : List Byte → Except DecodeError (Byte × List Byte)
  | [] => .error .truncated
  | b :: bs => .ok (b, bs)

/-- A natural operand: seven bits a byte, the least significant group first, bit 7 set on all but the last byte (log 6).
A last group of zero after another group is refused, so every natural has one spelling. -/
def readNat : List Byte → Except DecodeError (Nat × List Byte)
  | [] => .error .truncated
  | b :: bs =>
    if b.toNat < 128 then .ok (b.toNat, bs)
    else
      match readNat bs with
      | .error e => .error e
      | .ok (n, rest) =>
        if n = 0 then .error .overlong else .ok (b.toNat - 128 + 128 * n, rest)

/-- An integer operand `z` is carried as the natural `2*z` when `z` is not negative, else `-2*z - 1` (log 6). -/
def intOfNat (n : Nat) : Int :=
  if n % 2 = 0 then (n / 2 : Nat) else -((n / 2 : Nat) + 1 : Int)

/-- An integer operand. -/
def readInt (bs : List Byte) : Except DecodeError (Int × List Byte) := do
  let (n, bs) ← readNat bs
  return (intOfNat n, bs)

/-- `n` natural operands in a row. -/
def readNats : Nat → List Byte → Except DecodeError (List Nat × List Byte)
  | 0, bs => .ok ([], bs)
  | n + 1, bs => do
    let (x, bs) ← readNat bs
    let (xs, bs) ← readNats n bs
    return (x :: xs, bs)

/-- A list of natural operands behind its length. -/
def readNatList (bs : List Byte) : Except DecodeError (List Nat × List Byte) := do
  let (n, bs) ← readNat bs
  readNats n bs

/-- One byte that must be a code of an enumeration. -/
def readCode {α : Type} (ofCode : Nat → Option α) (e : DecodeError) (bs : List Byte) :
    Except DecodeError (α × List Byte) := do
  let (b, bs) ← readByte bs
  match ofCode b.toNat with
  | some a => return (a, bs)
  | none => .error e

/-- A 1-bit flag in a byte of its own. -/
def boolOfCode (c : Nat) : Option Bool :=
  match c with
  | 0 => some false
  | 1 => some true
  | _ => none

/-- A pinout operand: selector 0 is "default", selector 1 a table: clock, latch, address lines, data lines (log 6). -/
def readPinout (bs : List Byte) : Except DecodeError (PinoutArg × List Byte) := do
  let (isTable, bs) ← readCode boolOfCode .badSelector bs
  if isTable then
    let (clk, bs) ← readNat bs
    let (lat, bs) ← readNat bs
    let (addr, bs) ← readNatList bs
    let (data, bs) ← readNatList bs
    return (.table ⟨clk, lat, addr, data⟩, bs)
  else
    return (.default, bs)

/-- CONSTRUCT's operands in the order of 44_driver_commands.md R232. -/
def readConstruct (bs : List Byte) : Except DecodeError (Instr × List Byte) := do
  let (fbW, bs) ← readNat bs
  let (fbH, bs) ← readNat bs
  let (width, bs) ← readInt bs
  let (height, bs) ← readInt bs
  let (nAddr, bs) ← readNat bs
  let (orient, bs) ← readCode Orient.ofCode .badSelector bs
  let (mirror, bs) ← readCode boolOfCode .badSelector bs
  let (pinout, bs) ← readPinout bs
  let (colorspace, bs) ← readNat bs
  return (.construct fbW fbH width height nAddr orient mirror pinout colorspace, bs)

/-- FBWRITE's operands x, y, ch, v (R231). -/
def readFbwrite (bs : List Byte) : Except DecodeError (Instr × List Byte) := do
  let (x, bs) ← readNat bs
  let (y, bs) ← readNat bs
  let (ch, bs) ← readNat bs
  let (v, bs) ← readByte bs
  return (.fbwrite x y ch v, bs)

/-- FBREAD's operands x, y, ch (R231). -/
def readFbread (bs : List Byte) : Except DecodeError (Instr × List Byte) := do
  let (x, bs) ← readNat bs
  let (y, bs) ← readNat bs
  let (ch, bs) ← readNat bs
  return (.fbread x y ch, bs)

/-- A host command: CMD in bits 2:0 of the first byte (R102), bits 7:3 zero, then the operands. -/
def decodeCommand (bs : List Byte) : Except DecodeError (Instr × List Byte) := do
  let (b, bs) ← readByte bs
  match b.toNat with
  | 0 => readConstruct bs
  | 1 => return (.showFrame, bs)
  | 2 => return (.stopReq, bs)
  | 3 => return (.poll, bs)
  | 4 => readFbwrite bs
  | 5 => readFbread bs
  | 6 => return (.cmdReserved6, bs)
  | 7 => return (.cmdReserved7, bs)
  | _ => .error .highBits

/-! ### Format words -/

/-- The fields of an RGB565 word (R91, R101): R5 15:11, G6 10:5, B5 4:0. -/
def decodeRgb565 (w : BitVec 16) : Instr :=
  .fmtRgb565 (w.extractLsb' 11 5) (w.extractLsb' 5 6) (w.extractLsb' 0 5)

/-- A 16-bit word from its two bytes, little-endian (20_memory.md R63). -/
def le16 (lo hi : Byte) : BitVec 16 := hi ++ lo

/-- The decoder: the word at the front of the bytes, read in its space, and the bytes after it. Total on any bytes. -/
def decode (sp : Space) (bs : List Byte) : Except DecodeError (Instr × List Byte) :=
  match sp with
  | .command => decodeCommand bs
  | .pix888 => do
    let (r, bs) ← readByte bs
    let (g, bs) ← readByte bs
    let (b, bs) ← readByte bs
    return (.fmtPix888 r g b, bs)
  | .rgb565 => do
    let (lo, bs) ← readByte bs
    let (hi, bs) ← readByte bs
    return (decodeRgb565 (le16 lo hi), bs)
  | .rgb888 => do
    let (v, bs) ← readByte bs
    return (.fmtRgb888 v, bs)
  | .rgb888Packed => do
    let (r, bs) ← readByte bs
    let (g, bs) ← readByte bs
    let (b, bs) ← readByte bs
    return (.fmtRgb888packed r g b, bs)
  | .errCode => do
    let (e, bs) ← readCode ErrCode.ofCode .reservedCode bs
    return (.enumErr e, bs)
  | .fsmCode => do
    let (f, bs) ← readCode Fsm.ofCode .reservedCode bs
    return (.enumFsm f, bs)

/-! ### Selection of a micro-step by the scheduler position -/

/-- The micro-step the position selects (30_encoding.md R102, 43_output_scheduler.md R197, R205). `startEnabled` says that
`SCHED.START` is enabled (R205). At PHASE 0 it is `SCHED.SELECT`, of which `SCHED.TAKE` is a part. A PHASE past the
hold is reached by no run and selects nothing. -/
def selectMicroStep (width : Nat) (fsm : Fsm) (phase : Nat) (startEnabled : Bool) : Option Instr :=
  match fsm with
  | .idle => if startEnabled then some .schedStart else none
  | .streamingFrame =>
    if phase = 0 then some .schedSelect
    else if phase < 2 * width + 1 then
      if phase % 2 = 1 then some .schedData else some .schedClock
    else if phase = 2 * width + 1 then some .schedLatch
    else if phase = 2 * width + 2 then some .schedHold
    else none
  | .rowAdvance => some .schedRowadv
  | .planeAdvance => some .schedPlaneadv

/-! ### Encoding -/

/-- The bytes of a natural operand; the fuel `n` always suffices. -/
def natBytesFuel : Nat → Nat → List Byte
  | 0, n => [BitVec.ofNat 8 n]
  | fuel + 1, n =>
    if n < 128 then [BitVec.ofNat 8 n]
    else BitVec.ofNat 8 (128 + n % 128) :: natBytesFuel fuel (n / 128)

/-- The bytes of a natural operand (log 6). -/
def natBytes (n : Nat) : List Byte := natBytesFuel n n

/-- The natural that carries an integer operand. -/
def natOfInt : Int → Nat
  | .ofNat n => 2 * n
  | .negSucc n => 2 * n + 1

/-- The bytes of an integer operand. -/
def intBytes (z : Int) : List Byte := natBytes (natOfInt z)

/-- The bytes of a list of natural operands behind its length. -/
def natListBytes (xs : List Nat) : List Byte := natBytes xs.length ++ xs.flatMap natBytes

/-- The bytes of a pinout operand. -/
def pinoutBytes : PinoutArg → List Byte
  | .default => [0]
  | .table p => [1] ++ natBytes p.clk ++ natBytes p.lat ++ natListBytes p.addr ++ natListBytes p.data

/-- A flag in a byte of its own. -/
def boolByte (b : Bool) : Byte := if b then 1 else 0

/-- The bits of an RGB565 word (R91): `rrrrrggggggbbbbb`. -/
def encodeRgb565 (r5 : BitVec 5) (g6 : BitVec 6) (b5 : BitVec 5) : BitVec 16 := r5 ++ g6 ++ b5

/-- The two bytes of a 16-bit word, little-endian (20_memory.md R63). -/
def bytesLe16 (w : BitVec 16) : List Byte := [w.extractLsb' 0 8, w.extractLsb' 8 8]

/-- The word of an instruction. `none` for an operation that has no word of its own: the spec selects it by the position, by
a call from another operation, or (FMT.DW, FMT.LW, FMT.GPIO, ENUM.TRACE) gives it widths that CFG fixes. -/
def encode : Instr → Option Parcel
  | .construct fbW fbH width height nAddr orient mirror pinout colorspace =>
    some ⟨.command, [0] ++ natBytes fbW ++ natBytes fbH ++ intBytes width ++ intBytes height ++ natBytes nAddr
      ++ [orient.code.setWidth 8] ++ [boolByte mirror] ++ pinoutBytes pinout ++ natBytes colorspace⟩
  | .showFrame => some ⟨.command, [1]⟩
  | .stopReq => some ⟨.command, [2]⟩
  | .stopAck => none
  | .poll => some ⟨.command, [3]⟩
  | .fbwrite x y ch v => some ⟨.command, [4] ++ natBytes x ++ natBytes y ++ natBytes ch ++ [v]⟩
  | .fbread x y ch => some ⟨.command, [5] ++ natBytes x ++ natBytes y ++ natBytes ch⟩
  | .cmdReserved6 => some ⟨.command, [6]⟩
  | .cmdReserved7 => some ⟨.command, [7]⟩
  | .geom _ _ _ _ _ => none
  | .ori _ _ => none
  | .split _ _ => none
  | .map _ _ => none
  | .unmap _ _ _ => none
  | .down _ _ => none
  | .up _ _ => none
  | .pack565 _ _ _ => none
  | .unpack565 _ => none
  | .pack888 _ _ _ => none
  | .unpack888 _ _ _ => none
  | .pack888p _ _ _ => none
  | .unpack888p _ => none
  | .packframe _ => none
  | .unpackframe _ => none
  | .bit _ _ => none
  | .encode _ => none
  | .dur _ => none
  | .planeidx _ => none
  | .lineWrite _ _ => none
  | .schedStart => none
  | .schedTake => none
  | .schedSelect => none
  | .schedData => none
  | .schedClock => none
  | .schedLatch => none
  | .schedHold => none
  | .schedRowadv => none
  | .schedPlaneadv => none
  | .stopentry => none
  | .trapDeverr => none
  | .forcesafe => none
  | .fmtPix888 r g b => some ⟨.pix888, [r, g, b]⟩
  | .fmtRgb565 r g b => some ⟨.rgb565, bytesLe16 (encodeRgb565 r g b)⟩
  | .fmtRgb888 v => some ⟨.rgb888, [v]⟩
  | .fmtRgb888packed r g b => some ⟨.rgb888Packed, [r, g, b]⟩
  | .fmtDw _ => none
  | .fmtLw _ => none
  | .fmtGpio _ => none
  | .enumErr e => some ⟨.errCode, [e.code.setWidth 8]⟩
  | .enumFsm f => some ⟨.fsmCode, [f.code.setWidth 8]⟩
  | .enumTrace _ _ _ => none

/-! ### Words numbered as the opcode table numbers them -/

/-- The `n` low bytes of a number, the least significant first. -/
def bytesLe : Nat → Nat → List Byte
  | 0, _ => []
  | n + 1, w => BitVec.ofNat 8 w :: bytesLe n (w / 256)

/-- The space a table row's word is read in: the 16-bit row is FMT.RGB565, a 24-bit word is RGB888Packed, and the
rows with a CMD code are host commands. -/
def tableSpace (nbits : Nat) : Space :=
  if nbits = 16 then .rgb565
  else if nbits = 24 then .rgb888Packed
  else .command

/-- The bytes of a table word as its space stores them: an RGB888Packed pixel has its most significant byte (R) at the
lowest address (20_memory.md R63, R66); everything else has its least significant byte there. -/
def tableBytes (nbits w : Nat) : List Byte :=
  match tableSpace nbits with
  | .rgb888Packed => (bytesLe 3 w).reverse
  | _ => bytesLe (nbits / 8) w

/-- Zero bytes enough for the longest operand list whose operands are all zero. -/
def operandZeros : List Byte := List.replicate 16 0

/-- The parcel that holds a table word, its operand bytes zero, and nothing after the instruction. Bytes that are no word
are kept as they are. -/
def tableParcel (nbits w : Nat) : Parcel :=
  let sp := tableSpace nbits
  let bytes := tableBytes nbits w ++ operandZeros
  match decode sp bytes with
  | .ok (_, rest) => ⟨sp, bytes.take (bytes.length - rest.length)⟩
  | .error _ => ⟨sp, tableBytes nbits w⟩

/-- The instruction the decoder reads from a table word. -/
def decodeTableWord (nbits w : Nat) : Option Instr :=
  match decode (tableSpace nbits) (tableBytes nbits w ++ operandZeros) with
  | .ok (i, _) => some i
  | .error _ => none

end Sys2Proof
end

