-- ==== Sys2Proof/Machine/State.lean ====
section
/-! DEFINITION. The state of the block (10_state.md R20 to R36), the reasons a step stops, and the state after reset.
Plain data throughout. -/

namespace Sys2Proof.Machine

/-- Why the machine stops. The block itself has no fault: its four error kinds are return codes (60_exceptions.md R250), so
the instruction that meets one takes a next state. -/
inductive Fault where
  /-- Raised by the host port when the bytes offered are no word of their space (log 31). Safe: nothing runs. -/
  | badWord (e : DecodeError)
  /-- Raised by the host port when bytes follow the word in its parcel (log 31). Safe: nothing runs. -/
  | trailingBytes
deriving DecidableEq, Repr

/-- Why an operation has no step in a state: the `refuse` of 00_scope.md R10. Each is safe, since the spec gives the
operation no meaning there. -/
inductive Refusal where
  /-- Raised by `exec` for an operation that has no meaning in the model yet. -/
  | notModelled (mnemonic : String)
  /-- Raised by a host command that LIFE or STOPREQ does not enable (44_driver_commands.md R237, U1 to U3). -/
  | notEnabled
  /-- Raised by an operation whose operand names nothing: FBWRITE, FBREAD (U9), and the operations whose operand ranges
  CFG or B fix (40_geometry.md R126, 42_bitplane_encoder.md R171, 41_pixel_formats.md R146, R153). -/
  | badOperand
  /-- Raised by CONSTRUCT for a table that is no pinout (30_encoding.md R97, U7). -/
  | badPinout
  /-- Raised by a SHOW that would pass the MAX_SHOWCNT of the build (U8). -/
  | showcntBound
  /-- Raised by the command codes 6 and 7 (30_encoding.md R103, U10). -/
  | reservedCommand (cmd : Nat)
  /-- Raised by a scheduler micro-step, or a part of one, that the position does not select (30_encoding.md R102,
  log 18). -/
  | notSelected
  /-- Raised by an operation that reads CFG while no instance exists (10_state.md R22, log 19). -/
  | noInstance
deriving DecidableEq, Repr

/-- What GEOM returns (40_geometry.md R121). -/
structure Geometry where
  width : Nat
  height : Nat
  nAddr : Nat
  orient : Orient
  mirror : Bool
deriving DecidableEq, Repr

/-- CFG (10_state.md R22). -/
structure Cfg where
  width : Nat
  height : Nat
  nAddr : Nat
  orient : Orient
  mirror : Bool
  format : Format
  pinout : Pinout
deriving DecidableEq, Repr

/-- A byte-addressed memory whose bytes need not all have a value: address and byte, addresses strictly rising. An unlisted
address has no value of its own (log 11). -/
abbrev Memory := List Host.Cell

/-- PENDING, the mailbox (10_state.md R30). -/
structure Pending where
  valid : Bool
  id : Nat
  frame : List Byte
deriving DecidableEq, Repr

/-- ACTIVE, the snapshot (10_state.md R31). -/
structure Active where
  id : Nat
  frame : List Byte
deriving DecidableEq, Repr

/-- One line event of TRACE (10_state.md R33, 30_encoding.md R106): the logical line word, the nominal duration, the
status. The duration of a failed entry has no meaning (U12, log 23). -/
structure TraceEntry where
  lw : Nat
  dur : Nat
  status : Status
deriving DecidableEq, Repr

/-- A place a pixel has on the panel (40_geometry.md R125): row address, lane, shift column. -/
structure Place where
  a : Nat
  l : Nat
  c : Nat
deriving DecidableEq, Repr

/-- A pair of coordinates: logical `(x, y)` (20_memory.md R62) or physical `(px, py)` (40_geometry.md R124). -/
structure Coord where
  x : Nat
  y : Nat
deriving DecidableEq, Repr

/-- The model's own RESULT field: what the last operation gave its caller (log 10). -/
inductive Result where
  | none
  /-- A return code (R250). -/
  | code (e : ErrCode)
  | answer (a : Answer)
  | bit (b : Bool)
  | nat (n : Nat)
  | byte (v : Byte)
  | word16 (w : BitVec 16)
  | word24 (w : BitVec 24)
  | pixel (p : Pixel)
  | bytes (bs : List Byte)
  | coord (p : Coord)
  | place (p : Place)
  | geometry (g : Geometry)
  | trace (e : TraceEntry)
deriving DecidableEq, Repr

/-- The state. -/
structure State where
  /-- The build-time parameters (00_scope.md R8); no step writes them (log 1). -/
  params : BuildParams
  cfg : Cfg
  life : Life
  fsm : Fsm
  row : Nat
  k : Nat
  phase : Nat
  stopreq : Bool
  errflag : Bool
  err : ErrCode
  showcnt : Nat
  out : Sig
  fbW : Nat
  fbH : Nat
  fb : Memory
  pending : Pending
  active : Active
  pk : List Byte
  u : List Byte
  /-- DW, the word `DW[i][a][c]` at index `(i*NROWS + a)*WIDTH + c` (20_memory.md R67). -/
  dw : List Nat
  trace : List TraceEntry
  displayed : List Nat
  /-- Model's own: the commands the host has still to issue (log 5). -/
  program : List Parcel
  /-- Model's own: who moves next (log 3). -/
  turns : List Turn
  /-- Model's own: what the device will answer (log 4). -/
  answers : List Answer
  /-- Model's own: what the device answers once `answers` is used up; `none` is the free value (log 4). -/
  answersRest : Option Answer
  /-- Model's own: how many turns were taken from the free value (log 3). -/
  freeTurns : Nat
  /-- Model's own: how many answers were taken from the free value (log 4). -/
  freeAnswers : Nat
  /-- Model's own: how many framebuffers the host has allocated since reset (log 11). -/
  fbGen : Nat
  /-- Model's own: what the last operation returned (log 10). -/
  result : Result
deriving DecidableEq, Repr

/-- The safe state of the lines (43_output_scheduler.md R194): every line low. -/
def Sig.allOff : Sig := ⟨false, false, 0, 0⟩

/-- The machine right after reset (10_state.md R36, 70_reset_and_hazards.md R280). CFG, FB_W, FB_H, PENDING.id,
PENDING.frame, ACTIVE, PK, U and DW are unspecified there: DESIGN CHOICE (logs 12, 14, 15, unsafe). -/
def State.reset : State where
  params := {}
  cfg := ⟨0, 0, 0, .normal, false, .rgb565, ⟨0, 0, [], []⟩⟩
  life := .unconstructed
  fsm := .idle
  row := 0
  k := 0
  phase := 0
  stopreq := false
  errflag := false
  err := .ok
  showcnt := 0
  out := Sig.allOff
  fbW := 2
  fbH := 2
  fb := []
  pending := ⟨false, 0, []⟩
  active := ⟨0, []⟩
  pk := []
  u := []
  dw := []
  trace := []
  displayed := []
  program := []
  turns := []
  answers := []
  answersRest := none
  freeTurns := 0
  freeAnswers := 0
  fbGen := 0
  result := .none

/-- What a turn comes to: an operation to run, no operation (the agent waits, or the host acts on its own memory), or
bytes that are no word. -/
inductive Fetched where
  | run (i : Instr) (s : State)
  | wait (s : State)
  | bad (f : Fault)
deriving DecidableEq, Repr

end Sys2Proof.Machine
end

