-- ==== Sys2Proof/Machine/Operands.lean ====
section
/-! DEFINITION. The pure functions of the data path, over CFG and the build parameters only: derived constants
(00_scope.md R7), geometry (40_geometry.md), pixel formats (41_pixel_formats.md), bit planes (42_bitplane_encoder.md), and
the assembly of data words and line words from their fields (30_encoding.md R95 to R97, R101). -/

namespace Sys2Proof

/-! ### Accessors of the syntax records -/

/-- A quarter turn (R123). -/
def Orient.quarter : Orient → Bool
  | .normal => false
  | .r90 => true
  | .r180 => false
  | .r270 => true

/-- Channel `ch` of a pixel: 0 R, 1 G, 2 B (20_memory.md R61). -/
def Pixel.channel (px : Pixel) (ch : Nat) : Byte :=
  if ch = 0 then px.r8 else if ch = 1 then px.g8 else px.b8

/-- The three storage bytes of a canonical pixel, R at the lowest address (30_encoding.md R90). -/
def Pixel.bytes (px : Pixel) : List Byte := [px.r8, px.g8, px.b8]

/-- Channel `ch` of a lane's plane bits. -/
def LaneBits.channel (x : LaneBits) (ch : Nat) : Bool :=
  if ch = 0 then x.r else if ch = 1 then x.g else x.b

/-- PLANEIDX (R174). -/
def BuildParams.planeIdx (p : BuildParams) (k : Nat) : Nat :=
  match p.planeOrder with
  | .lsbFirst => k
  | .msbFirst => p.depth - 1 - k

/-- The bits of `v` moved one by one to the lines a table names: bit `k` to line `pins[k]` (R97). -/
def moveBits : Nat → List Nat → Nat
  | _, [] => 0
  | v, line :: pins => ((v % 2) <<< line) ||| moveBits (v / 2) pins

/-- The physical word GPIO of a signal record (R97). -/
def Pinout.gpio (p : Pinout) (s : Sig) : Nat :=
  (s.clk.toNat <<< p.clk) ||| (s.lat.toNat <<< p.lat) ||| moveBits s.addr p.addr ||| moveBits s.data p.data

end Sys2Proof

namespace Sys2Proof.Machine

/-! ### Derived constants (00_scope.md R7, 40_geometry.md R122) -/

/-- NROWS, the number of row addresses. -/
def Cfg.nrows (c : Cfg) : Nat := 2 ^ c.nAddr

/-- MUX, the number of lanes. -/
def Cfg.mux (c : Cfg) : Nat := c.height / c.nrows

/-- NDATA, the number of data lines. -/
def Cfg.ndata (c : Cfg) : Nat := 3 * c.mux

/-- NSIG, the number of logical signals. -/
def Cfg.nsig (c : Cfg) : Nat := 2 + c.nAddr + c.ndata

/-- NPIX, the number of pixels. -/
def Cfg.npix (c : Cfg) : Nat := c.width * c.height

/-- NLINES, the number of physical lines; its default is NSIG (00_scope.md R8, 92 D18). -/
def Cfg.nlines (c : Cfg) (p : BuildParams) : Nat := p.nlines.getD c.nsig

/-- `n` is within an optional bound (92_eei_decisions.md D29). -/
def withinBound (bound : Option Nat) (n : Nat) : Bool :=
  match bound with
  | none => true
  | some m => decide (n ≤ m)

/-! ### Buffers -/

/-- The byte at an index of a buffer. Every rule forms indices inside the buffer (20_memory.md R72); past its end the model
reads 0 (log 16). -/
def byteAt (buf : List Byte) (a : Nat) : Byte := buf.getD a 0

/-- The canonical pixel of logical index `p` in a buffer with the layout of FB (20_memory.md R61). -/
def pixelAt (buf : List Byte) (p : Nat) : Pixel :=
  ⟨byteAt buf (3 * p), byteAt buf (3 * p + 1), byteAt buf (3 * p + 2)⟩

/-- Byte address of channel `ch` of the pixel `(x, y)` in a buffer `w` pixels wide (20_memory.md R61). -/
def fbAddr (w x y ch : Nat) : Nat := 3 * (y * w + x) + ch

/-! ### Geometry (40_geometry.md) -/

/-- GEOM (R121): check a geometry and return it, or InvalidGeometry. -/
def geometryOf (width height : Int) (nAddr : Nat) (orient : Orient) (mirror : Bool) : Except ErrCode Geometry :=
  if width ≤ 0 then .error .invalidGeometry
  else if height ≤ 0 then .error .invalidGeometry
  else if height.toNat % 2 ^ nAddr ≠ 0 then .error .invalidGeometry
  else if orient.quarter ∧ width ≠ height then .error .invalidGeometry
  else .ok ⟨width.toNat, height.toNat, nAddr, orient, mirror⟩

/-- ORI (R124): logical `(x, y)` to physical `(px, py)`, the mirror first. -/
def Cfg.ori (c : Cfg) (x y : Nat) : Coord :=
  let xm := if c.mirror then c.width - 1 - x else x
  match c.orient with
  | .normal => ⟨xm, y⟩
  | .r90 => ⟨c.width - 1 - y, xm⟩
  | .r180 => ⟨c.width - 1 - xm, c.height - 1 - y⟩
  | .r270 => ⟨y, c.width - 1 - xm⟩

/-- SPLIT (R125): physical `(px, py)` to row address, lane and shift column. -/
def Cfg.split (c : Cfg) (px py : Nat) : Place := ⟨py % c.nrows, py / c.nrows, px⟩

/-- MAP (R126). -/
def Cfg.map (c : Cfg) (x y : Nat) : Place :=
  let p := c.ori x y
  c.split p.x p.y

/-- UNMAP (R127), the inverse of MAP. -/
def Cfg.unmap (cfg : Cfg) (a l c : Nat) : Coord :=
  let px := c
  let py := l * cfg.nrows + a
  let m : Coord :=
    match cfg.orient with
    | .normal => ⟨px, py⟩
    | .r90 => ⟨py, cfg.width - 1 - px⟩
    | .r180 => ⟨cfg.width - 1 - px, cfg.height - 1 - py⟩
    | .r270 => ⟨cfg.width - 1 - py, px⟩
  ⟨if cfg.mirror then cfg.width - 1 - m.x else m.x, m.y⟩

/-! ### Pixel formats (41_pixel_formats.md) -/

/-- DOWN (R142): the nearest of the `2^n` levels of an intensity. -/
def down (v : Nat) (n : FieldWidth) : Nat := (v * (2 ^ n.bits - 1) + 127) / 255

/-- UP (R146): the nearest intensity of a level. -/
def up (q : Nat) (n : FieldWidth) : Nat := (q * 255 + (2 ^ n.bits - 1) / 2) / (2 ^ n.bits - 1)

/-- PACK565 (R143, word format 30_encoding.md R91). -/
def pack565 (p : Pixel) : BitVec 16 :=
  BitVec.ofNat 16 ((down p.r8.toNat .five <<< 11) ||| (down p.g8.toNat .six <<< 5) ||| down p.b8.toNat .five)

/-- UNPACK565 (R147). -/
def unpack565 (w : BitVec 16) : Pixel :=
  ⟨BitVec.ofNat 8 (up (w.extractLsb' 11 5).toNat .five),
   BitVec.ofNat 8 (up (w.extractLsb' 5 6).toNat .six),
   BitVec.ofNat 8 (up (w.extractLsb' 0 5).toNat .five)⟩

/-- PACK888 (R149): the bytes for the R, G and B planes, unchanged. -/
def pack888 (p : Pixel) : Pixel := p

/-- UNPACK888 (R150). -/
def unpack888 (rp gp bp : Byte) : Pixel := ⟨rp, gp, bp⟩

/-- PACK888P (R151, word format 30_encoding.md R93). -/
def pack888P (p : Pixel) : BitVec 24 := p.r8 ++ p.g8 ++ p.b8

/-- UNPACK888P (R152). -/
def unpack888P (w : BitVec 24) : Pixel := ⟨w.extractLsb' 16 8, w.extractLsb' 8 8, w.extractLsb' 0 8⟩

/-- The bytes of an RGB888Packed word, R at the lowest address (20_memory.md R66). -/
def bytesBe24 (w : BitVec 24) : List Byte := [w.extractLsb' 16 8, w.extractLsb' 8 8, w.extractLsb' 0 8]

/-- The 24-bit number three bytes spell, the first most significant (20_memory.md R63). -/
def be24 (b0 b1 b2 : Byte) : BitVec 24 := b0 ++ b1 ++ b2

/-- The size of PK in bytes (20_memory.md R60, 30_encoding.md R94). -/
def Cfg.pkSize (c : Cfg) : Nat :=
  match c.format with
  | .rgb565 => 2 * c.npix
  | .rgb888 => 3 * c.npix
  | .rgb888Packed => 3 * c.npix

/-- PACKFRAME (R153): PK from a frame, by the layout of the configured format (20_memory.md R64 to R66). -/
def Cfg.packFrame (c : Cfg) (frame : List Byte) : List Byte :=
  match c.format with
  | .rgb565 => (List.range c.npix).flatMap fun p => bytesLe16 (pack565 (pixelAt frame p))
  | .rgb888 =>
    (List.range 3).flatMap fun ch => (List.range c.npix).map fun p => (pack888 (pixelAt frame p)).channel ch
  | .rgb888Packed => (List.range c.npix).flatMap fun p => bytesBe24 (pack888P (pixelAt frame p))

/-- The canonical pixel of logical index `p`, read from PK in the configured format (R154). -/
def Cfg.unpackPixel (c : Cfg) (pk : List Byte) (p : Nat) : Pixel :=
  match c.format with
  | .rgb565 => unpack565 (le16 (byteAt pk (2 * p)) (byteAt pk (2 * p + 1)))
  | .rgb888 => unpack888 (byteAt pk p) (byteAt pk (c.npix + p)) (byteAt pk (2 * c.npix + p))
  | .rgb888Packed => unpack888P (be24 (byteAt pk (3 * p)) (byteAt pk (3 * p + 1)) (byteAt pk (3 * p + 2)))

/-- UNPACKFRAME (R154): U from PK. -/
def Cfg.unpackFrame (c : Cfg) (pk : List Byte) : List Byte :=
  (List.range c.npix).flatMap fun p => (c.unpackPixel pk p).bytes

/-! ### Bit planes (42_bitplane_encoder.md) -/

/-- BIT (R171): the bit of weight `2^i` among the top `b` bits of an intensity. -/
def planeBit (b : Nat) (e8 : Byte) (i : Nat) : Bool := e8.getLsbD (8 - b + i)

/-- DUR (R173), in time units. -/
def planeDur (i : Nat) : Nat := 2 ^ i

/-- The number whose bit `j`, for `j < n`, is `f j`, and whose other bits are 0 (R101 (d)). -/
def orBits : Nat → (Nat → Bool) → Nat
  | 0, _ => 0
  | n + 1, f => orBits n f ||| ((f n).toNat <<< n)

/-- The data word of plane `i`, row address `a`, column `c` (R172, format 30_encoding.md R95): bit `3*l + ch` is the plane bit
of channel `ch` of the pixel that UNMAP gives for lane `l`. -/
def Cfg.dataWord (cfg : Cfg) (b : Nat) (u : List Byte) (i a c : Nat) : Nat :=
  orBits (3 * cfg.mux) fun j =>
    let q := cfg.unmap a (j / 3) c
    planeBit b (byteAt u (fbAddr cfg.width q.x q.y (j % 3))) i

/-- ENCODE (R172): DW in the order of its linear index (20_memory.md R67). -/
def Cfg.encodeFrame (cfg : Cfg) (b : Nat) (u : List Byte) : List Nat :=
  (List.range b).flatMap fun i =>
    (List.range cfg.nrows).flatMap fun a =>
      (List.range cfg.width).map fun c => cfg.dataWord b u i a c

/-- The linear index of `DW[i][a][c]` (20_memory.md R67). -/
def Cfg.dwIndex (cfg : Cfg) (i a c : Nat) : Nat := (i * cfg.nrows + a) * cfg.width + c

/-! ### Data words, line words, physical words (30_encoding.md R95 to R97) -/

/-- The data word of a list of lanes, lane 0 first (R95). -/
def dataWordOfLanes (lanes : List LaneBits) : Nat :=
  orBits (3 * lanes.length) fun j => (lanes.getD (j / 3) ⟨false, false, false⟩).channel (j % 3)

/-- The logical line word LW of a signal record (R96). -/
def Cfg.lineWord (c : Cfg) (s : Sig) : Nat :=
  s.data ||| (s.addr <<< c.ndata) ||| (s.lat.toNat <<< (c.ndata + c.nAddr))
    ||| (s.clk.toNat <<< (c.ndata + c.nAddr + 1))

/-- A signal record whose ADDR and DATA fit their fields (R96). -/
def Cfg.sigFits (c : Cfg) (s : Sig) : Bool := decide (s.addr < 2 ^ c.nAddr) && decide (s.data < 2 ^ c.ndata)

/-- The default pinout, the identity on the logical line word (R97). -/
def Cfg.defaultPinout (c : Cfg) : Pinout where
  clk := c.ndata + c.nAddr + 1
  lat := c.ndata + c.nAddr
  addr := (List.range c.nAddr).map (c.ndata + ·)
  data := List.range c.ndata

/-- The table a pinout operand names. -/
def Cfg.resolvePinout (c : Cfg) : PinoutArg → Pinout
  | .default => c.defaultPinout
  | .table p => p

/-- A table that is a pinout: total on the NSIG signals, into the NLINES lines, injective (R97, U7). -/
def Cfg.pinoutOk (c : Cfg) (nlines : Nat) (p : Pinout) : Bool :=
  decide (p.addr.length = c.nAddr) && decide (p.data.length = c.ndata)
    && p.lines.all (fun line => decide (line < nlines)) && decide p.lines.Nodup

/-! ### The checks of CONSTRUCT (44_driver_commands.md R232) -/

/-- The configuration CONSTRUCT would store, or the error it returns: geometry first, then the bounds of the build (U16),
then the format, then the framebuffer's dimensions (60_exceptions.md R253). -/
def constructCfg (params : BuildParams) (fbW fbH : Nat) (width height : Int) (nAddr : Nat) (orient : Orient)
    (mirror : Bool) (pinout : PinoutArg) (colorspace : Nat) : Except ErrCode Cfg :=
  match geometryOf width height nAddr orient mirror with
  | .error e => .error e
  | .ok g =>
    if !(withinBound params.maxWidth g.width && withinBound params.maxHeight g.height
        && withinBound params.maxAddr g.nAddr) then .error .invalidGeometry
    else
      match Format.ofCode colorspace with
      | none => .error .unsupportedFormat
      | some f =>
        if (fbW : Int) ≠ width ∨ (fbH : Int) ≠ height then .error .geometryMismatch
        else
          let c : Cfg := ⟨g.width, g.height, g.nAddr, g.orient, g.mirror, f, ⟨0, 0, [], []⟩⟩
          .ok { c with pinout := c.resolvePinout pinout }

end Sys2Proof.Machine
end

