-- ==== Sys2Proof/Machine/Flags.lean ====
section
/-! DEFINITION. The three one-bit flags of 10_state.md R25 (STOPREQ, ERRFLAG, PENDING.valid) and ERR beside ERRFLAG: every
way a flag is set, cleared and read. The block has no arithmetic condition codes. -/

namespace Sys2Proof.Machine

/-- Store what an operation gives its caller (model's own RESULT, log 10). -/
def State.answer (s : State) (r : Result) : State := { s with result := r }

/-- STOP.req sets STOPREQ (44_driver_commands.md R235). -/
def State.requestStop (s : State) : State := { s with stopreq := true }

/-- STOP.ack and CONSTRUCT clear STOPREQ (R25). -/
def State.clearStop (s : State) : State := { s with stopreq := false }

/-- The DeviceError entry latches the error (60_exceptions.md R256). -/
def State.latchError (s : State) : State := { s with err := .deviceError, errflag := true }

/-- The latched error is cleared by the command that reports it (R259) and by CONSTRUCT (10_state.md R25, R26). -/
def State.clearError (s : State) : State := { s with err := .ok, errflag := false }

/-- The mailbox is emptied: PENDING.valid <- 0, its other fields kept (10_state.md R25, R30). -/
def State.dropPending (s : State) : State := { s with pending := { s.pending with valid := false } }

/-- The report that SHOW, POLL and STOP.ack share: if an error is latched return it and clear the latch, else return OK
(60_exceptions.md R259). -/
def State.reportError (s : State) : State :=
  if s.errflag then (s.clearError).answer (.code s.err) else s.answer (.code .ok)

/-- SHOW, POLL and STOP.req are enabled: LIFE = Constructed and STOPREQ = 0 (44_driver_commands.md R237). -/
def State.commandEnabled (s : State) : Bool := decide (s.life = .constructed) && !s.stopreq

/-- CONSTRUCT is enabled: LIFE is Unconstructed or Stopped and STOPREQ = 0 (R237). -/
def State.constructEnabled (s : State) : Bool := decide (s.life ≠ .constructed) && !s.stopreq

/-- FBWRITE and FBREAD are enabled: in every LIFE state, while STOPREQ = 0 (R231, R237). -/
def State.fbEnabled (s : State) : Bool := !s.stopreq

/-- STOP.ack is enabled: STOPREQ = 1 and FSM = Idle (R236, R237). -/
def State.ackEnabled (s : State) : Bool := decide (s.life = .constructed) && s.stopreq && decide (s.fsm = .idle)

/-- SCHED.START is enabled (43_output_scheduler.md R205). -/
def State.startEnabled (s : State) : Bool :=
  decide (s.life = .constructed) && s.pending.valid && !s.stopreq

end Sys2Proof.Machine
end

