-- ==== Sys2Proof/Machine/Ops.lean ====
section
/-! DEFINITION. The named operations over memory, lines, position and the model's own input lists, and the shared operations
on errors: taking the DeviceError entry (60_exceptions.md R256), and beside it the report that stands in for a return (R259, in
Flags.lean). -/

namespace Sys2Proof.Machine

/-! ### FB (20_memory.md R61) -/

/-- The byte listed at an address, if any. -/
def Memory.read? : Memory → Nat → Option Byte
  | [], _ => none
  | (k, v) :: m, a => if k = a then some v else Memory.read? m a

/-- List a byte at an address, keeping the addresses strictly rising. -/
def Memory.write : Memory → Nat → Byte → Memory
  | [], a, v => [(a, v)]
  | (k, w) :: m, a, v =>
    if a < k then (a, v) :: (k, w) :: m
    else if a = k then (a, v) :: m
    else (k, w) :: Memory.write m a v

/-- The canonical form: strictly rising addresses. An unlisted address reads as "no value", and no listed entry can equal
that, so equal memories are equal lists. -/
abbrev Memory.wf (m : Memory) : Prop := m.Pairwise fun p q => p.1 < q.1

/-- MemRead(FB, a, 1): a byte the host never wrote is a free value (10_state.md R29, U13, log 11). -/
def State.fbByte (s : State) (a : Nat) : Byte :=
  match s.fb.read? a with
  | some v => v
  | none => Config.freeFbByte s.fbGen a

/-- MemWrite(FB, a, 1, v). -/
def State.setFbByte (s : State) (a : Nat) (v : Byte) : State := { s with fb := s.fb.write a v }

/-- `(x, y, ch)` names a byte of FB (44_driver_commands.md R231, U9). -/
def State.fbInRange (s : State) (x y ch : Nat) : Bool :=
  decide (x < s.fbW) && decide (y < s.fbH) && decide (ch ≤ 2)

/-- A copy of all 3*NPIX bytes of FB (R233). -/
def State.fbFrame (s : State) : List Byte := (List.range (3 * s.cfg.npix)).map s.fbByte

/-- The host allocates a framebuffer of dimensions of its own choosing, whose bytes nobody has written (R29, log 13). -/
def State.allocateFb (s : State) (w h : Nat) : State :=
  { s with fbW := w, fbH := h, fb := [], fbGen := s.fbGen + 1 }

/-- FB has these dimensions. CONSTRUCT succeeds only when it has the geometry's, `FB_W = WIDTH` and `FB_H = HEIGHT` (R29,
20_memory.md R68). -/
def State.fbSized (s : State) (w h : Nat) : Bool := decide (s.fbW = w) && decide (s.fbH = h)

/-! ### The mailbox, the snapshot and the derived buffers -/

/-- SHOW publishes a frame: SHOWCNT + 1 is its id, and PENDING is overwritten (R233). -/
def State.publish (s : State) : State :=
  { s with showcnt := s.showcnt + 1, pending := ⟨true, s.showcnt + 1, s.fbFrame⟩ }

/-- PK <- PACKFRAME(frame) (41_pixel_formats.md R153). -/
def State.packInto (s : State) (frame : List Byte) : State := { s with pk := s.cfg.packFrame frame }

/-- U <- UNPACKFRAME(pk) (R154). -/
def State.unpackInto (s : State) (pk : List Byte) : State := { s with u := s.cfg.unpackFrame pk }

/-- DW <- ENCODE(u) (42_bitplane_encoder.md R172). -/
def State.encodeInto (s : State) (u : List Byte) : State := { s with dw := s.cfg.encodeFrame s.params.depth u }

/-- ACTIVE <- PENDING's frame, and PENDING.valid <- 0 (43_output_scheduler.md R199). -/
def State.snapshot (s : State) : State :=
  { s with
    active := ⟨s.pending.id, s.pending.frame⟩
    pending := { s.pending with valid := false } }

/-- PK, U and DW recomputed from ACTIVE, each from the one before (R141, R199). -/
def State.recompute (s : State) : State :=
  let s1 := s.packInto s.active.frame
  let s2 := s1.unpackInto s1.pk
  s2.encodeInto s2.u

/-- SCHED.TAKE (R199). -/
def State.take (s : State) : State :=
  let s1 := if s.pending.valid then s.snapshot.recompute else s
  { s1 with displayed := s1.displayed ++ [s1.active.id] }

/-! ### The scheduler position (10_state.md R24) -/

/-- FSM <- Idle, ROW <- 0, K <- 0, PHASE <- 0. -/
def State.toIdle (s : State) : State := { s with fsm := .idle, row := 0, k := 0, phase := 0 }

/-- The micro-step the position selects (30_encoding.md R102). -/
def State.selected (s : State) : Option Instr := selectMicroStep s.cfg.width s.fsm s.phase s.startEnabled

/-- The position selects this micro-step. -/
def State.selects (s : State) (i : Instr) : Bool := s.selected == some i

/-- The cycle-start position, where SCHED.TAKE is performed (43_output_scheduler.md R198, R199). -/
def State.atCycleStart (s : State) : Bool :=
  decide (s.fsm = .streamingFrame) && decide (s.row = 0) && decide (s.k = 0) && decide (s.phase = 0)

/-- The plane bit index of the step in progress, PLANEIDX(K). -/
def State.plane (s : State) : Nat := s.params.planeIdx s.k

/-- `DW[i][a][c]`. -/
def State.dwWord (s : State) (i a c : Nat) : Nat := s.dw.getD (s.cfg.dwIndex i a c) 0

/-- The column a data or clock phase shifts: PHASE is `1 + 2c` or `2 + 2c` (R197). -/
def State.column (s : State) : Nat := (s.phase - 1) / 2

/-- The data word of the column being shifted, `DW[PLANEIDX(K)][ROW][c]`. -/
def State.columnWord (s : State) : Nat := s.dwWord s.plane s.row s.column

/-! ### The lines (43_output_scheduler.md R194 to R197, 60_exceptions.md R256, R257) -/

/-- The device's next answer: the next of State's list, past its end the answer State names for the rest, and a free value
where it names none (R195, log 4). -/
def State.takeAnswer (s : State) : Answer × State :=
  match s.answers with
  | a :: rest => (a, { s with answers := rest })
  | [] =>
    match s.answersRest with
    | some a => (a, s)
    | none => (Config.freeAnswer s.freeAnswers, { s with freeAnswers := s.freeAnswers + 1 })

/-- The answer to the line write that comes after `n` others. -/
def State.answerAt (s : State) (n : Nat) : Answer :=
  match s.answers[n]? with
  | some a => a
  | none => s.answersRest.getD (Config.freeAnswer (s.freeAnswers + (n - s.answers.length)))

/-- Append an event to TRACE. -/
def State.logLine (s : State) (lw dur : Nat) (st : Status) : State :=
  { s with trace := s.trace ++ [⟨lw, dur, st⟩] }

/-- OUT <- sig. -/
def State.drive (s : State) (sig : Sig) : State := { s with out := sig }

/-- LineWrite (R196): on ok the lines carry the record; on fail OUT is not updated. -/
def State.lineWrite (s : State) (sig : Sig) (dur : Nat) : Answer × State :=
  match s.takeAnswer with
  | (.ok, s1) => (.ok, (s1.drive sig).logLine (s1.cfg.lineWord sig) dur .ok)
  | (.fail, s1) => (.fail, s1.logLine (s1.cfg.lineWord sig) dur .fail)

/-- FORCESAFE (R257): every line low, recorded as forced; it does not consult the device (log 22). -/
def State.forceSafe (s : State) : State := (s.drive Sig.allOff).logLine 0 0 .forced

/-- TRAP.DEVERR, the DeviceError entry (R256): the lines are forced safe, the error is latched, the mailbox is emptied, the
scheduler is in Idle at position 0. -/
def State.deviceErrorEntry (s : State) : State := s.forceSafe.latchError.dropPending.toIdle

/-- STOPENTRY (43_output_scheduler.md R204). -/
def State.stopEntry (s : State) : State := s.forceSafe.dropPending.toIdle

/-- A line write of a micro-step: go on as `onOk` says if the device answers ok, else take the DeviceError entry in the
same micro-step (R198, R200). -/
def State.writeOrTrap (s : State) (sig : Sig) (dur : Nat) (onOk : State → State) : State :=
  match s.lineWrite sig dur with
  | (.ok, s1) => onOk s1
  | (.fail, s1) => s1.deviceErrorEntry

/-- PHASE <- PHASE + 1. -/
def State.nextPhase (s : State) : State := { s with phase := s.phase + 1 }

/-- FSM <- f. -/
def State.goto (s : State) (f : Fsm) : State := { s with fsm := f }

/-! ### Driver instances (44_driver_commands.md R232, R236) -/

/-- What a successful CONSTRUCT establishes (R232); OUT, FB, ACTIVE, PK, U, DW and the histories are not written
(log 17). -/
def State.startInstance (s : State) (c : Cfg) : State :=
  { s.toIdle.clearStop.clearError.dropPending with cfg := c, life := .constructed, showcnt := 0 }

/-- What STOP.ack establishes before its report (R236). -/
def State.endInstance (s : State) : State := { s.dropPending.clearStop with life := .stopped }

/-! ### Guards -/

/-- Run an operation if its condition holds, else refuse it by name. -/
def guarded (ok : Bool) (why : Refusal) (t : State) : Host.Outcome State Fault Refusal :=
  if ok then .next t else .refused why

/-- "`CFG` is read only while `LIFE = Constructed`" (10_state.md R22): an operation that reads it has a meaning only then
(log 19). `ok` is its operand check. -/
def State.withInstance (s : State) (ok : Bool) (t : State) : Host.Outcome State Fault Refusal :=
  if s.life = .constructed then guarded ok .badOperand t else .refused .noInstance

/-! ### The next turn (00_scope.md R11) -/

/-- Whose turn it is: the next of State's list, and past its end a free value (log 3). -/
def State.takeTurn (s : State) : Turn × State :=
  match s.turns with
  | t :: rest => (t, { s with turns := rest })
  | [] => (Config.freeTurn s.freeTurns, { s with freeTurns := s.freeTurns + 1 })

/-- The scheduler's turn: the micro-step its position selects, or a wait (43_output_scheduler.md R205). -/
def State.schedulerTurn (s : State) : Fetched :=
  match s.selected with
  | some i => .run i s
  | none => .wait s

/-- The next word of the host's program, decoded; a host with nothing left to issue waits. -/
def State.fetchCommand (s : State) : Fetched :=
  match s.program with
  | [] => .wait s
  | p :: rest =>
    match decode p.space p.bytes with
    | .ok (i, []) => .run i { s with program := rest }
    | .ok (_, _ :: _) => .bad .trailingBytes
    | .error e => .bad (.badWord e)

/-- The host's turn. While STOPREQ = 1 the host is inside `stop()`: it issues nothing, and the call returns by STOP.ack once
the scheduler is in Idle (44_driver_commands.md R235, R236, log 8). -/
def State.hostTurn (s : State) : Fetched :=
  if s.stopreq then (if s.ackEnabled then .run .stopAck s else .wait s)
  else s.fetchCommand

/-- The host ends (R239, U14): it issues no further command, and a live instance is torn down as by `stop()` (log 9). -/
def State.hostEndsTurn (s : State) : Fetched :=
  let s1 := { s with program := [] }
  if s1.commandEnabled then .run .stopReq s1 else .wait s1

/-- The host allocates a framebuffer. A live instance is bound to the one it was given, and a host inside `stop()` does
nothing, so then nothing changes (10_state.md R29, log 13). -/
def State.hostAllocatesTurn (s : State) (w h : Nat) : Fetched :=
  .wait (if s.constructEnabled then s.allocateFb w h else s)

/-- What a turn comes to. -/
def State.fetch (s : State) : Fetched :=
  match s.takeTurn with
  | (.host, s1) => s1.hostTurn
  | (.scheduler, s1) => s1.schedulerTurn
  | (.hostAllocates w h, s1) => s1.hostAllocatesTurn w h
  | (.hostEnds, s1) => s1.hostEndsTurn

end Sys2Proof.Machine
end

