-- ==== Sys2Proof/Machine/Commands.lean ====
section
/-! DEFINITION. The host commands (44_driver_commands.md): one meaning per command. -/

namespace Sys2Proof.Machine

/-- CONSTRUCT (R232). A construction error is returned and writes no state (60_exceptions.md R251). GeometryMismatch is
returned for operands `fb_w`, `fb_h` that disagree with the geometry, and for an FB that does (10_state.md R29, log 32). After
the three errors a table that is no pinout is refused (U7, log 28). FB is not touched. -/
def execConstruct (fbW fbH : Nat) (width height : Int) (nAddr : Nat) (orient : Orient) (mirror : Bool)
    (pinout : PinoutArg) (colorspace : Nat) (s : State) : Host.Outcome State Fault Refusal :=
  if !s.constructEnabled then .refused .notEnabled
  else
    match constructCfg s.params fbW fbH width height nAddr orient mirror pinout colorspace with
    | .error e => .next (s.answer (.code e))
    | .ok c =>
      if !s.fbSized c.width c.height then .next (s.answer (.code .geometryMismatch))
      else guarded (c.pinoutOk (c.nlines s.params) c.pinout) .badPinout ((s.startInstance c).answer (.code .ok))

/-- SHOW (R233): report a latched error and publish nothing, else publish FB's contents. A build with MAX_SHOWCNT refuses
the SHOW that would pass it (U8). -/
def execShow (s : State) : Host.Outcome State Fault Refusal :=
  if !s.commandEnabled then .refused .notEnabled
  else if s.errflag then .next s.reportError
  else guarded (withinBound s.params.maxShowcnt (s.showcnt + 1)) .showcntBound (s.publish.answer (.code .ok))

/-- STOP.req (R235). It returns nothing: `stop()` returns at STOP.ack. -/
def execStopReq (s : State) : Host.Outcome State Fault Refusal :=
  guarded s.commandEnabled .notEnabled (s.requestStop.answer .none)

/-- STOP.ack (R236). -/
def execStopAck (s : State) : Host.Outcome State Fault Refusal :=
  guarded s.ackEnabled .notEnabled s.endInstance.reportError

/-- POLL (R234). -/
def execPoll (s : State) : Host.Outcome State Fault Refusal :=
  guarded s.commandEnabled .notEnabled s.reportError

/-- FBWRITE (R231). -/
def execFbwrite (x y ch : Nat) (v : Byte) (s : State) : Host.Outcome State Fault Refusal :=
  if !s.fbEnabled then .refused .notEnabled
  else guarded (s.fbInRange x y ch) .badOperand ((s.setFbByte (fbAddr s.fbW x y ch) v).answer .none)

/-- FBREAD (R231). -/
def execFbread (x y ch : Nat) (s : State) : Host.Outcome State Fault Refusal :=
  if !s.fbEnabled then .refused .notEnabled
  else guarded (s.fbInRange x y ch) .badOperand (s.answer (.byte (s.fbByte (fbAddr s.fbW x y ch))))

/-- CMD 6: reserved, refused (30_encoding.md R103, U10). -/
def execCmdReserved6 (_ : State) : Host.Outcome State Fault Refusal := .refused (.reservedCommand 6)

/-- CMD 7: reserved, refused (30_encoding.md R103, U10). -/
def execCmdReserved7 (_ : State) : Host.Outcome State Fault Refusal := .refused (.reservedCommand 7)

end Sys2Proof.Machine
end

