-- ==== Sys2Proof/Machine/Encoder.lean ====
section
/-! DEFINITION. The bit-plane encoder as operations of their own (42_bitplane_encoder.md). -/

namespace Sys2Proof.Machine

/-- BIT (R171); its plane index is below B. -/
def execBit (e8 : Byte) (i : Nat) (s : State) : Host.Outcome State Fault Refusal :=
  guarded (decide (i < s.params.depth)) .badOperand (s.answer (.bit (planeBit s.params.depth e8 i)))

/-- ENCODE (R172), which writes DW only; its operand has the layout of FB. -/
def execEncode (u : List Byte) (s : State) : Host.Outcome State Fault Refusal :=
  s.withInstance (decide (u.length = 3 * s.cfg.npix)) (s.encodeInto u)

/-- DUR (R173); its plane index is below B. -/
def execDur (i : Nat) (s : State) : Host.Outcome State Fault Refusal :=
  guarded (decide (i < s.params.depth)) .badOperand (s.answer (.nat (planeDur i)))

/-- PLANEIDX (R174); its sequence index is below B. -/
def execPlaneidx (k : Nat) (s : State) : Host.Outcome State Fault Refusal :=
  guarded (decide (k < s.params.depth)) .badOperand (s.answer (.nat (s.params.planeIdx k)))

end Sys2Proof.Machine
end

