-- ==== Sys2Proof/Machine/Encodings.lean ====
section
/-! DEFINITION. The data formats and enumerations of 30_encoding.md as operations: each assembles its word or code from its
fields (R101) and leaves it in the model's RESULT (logs 7, 10). The block's state is not touched. -/

namespace Sys2Proof.Machine

/-- FMT.PIX888 (R90): the three bytes of a canonical pixel, in address order. -/
def execFmtPix888 (r8 g8 b8 : Byte) (s : State) : Host.Outcome State Fault Refusal :=
  .next (s.answer (.bytes (Pixel.bytes ⟨r8, g8, b8⟩)))

/-- FMT.RGB565 (R91): the word `rrrrrggggggbbbbb`. -/
def execFmtRgb565 (r5 : BitVec 5) (g6 : BitVec 6) (b5 : BitVec 5) (s : State) : Host.Outcome State Fault Refusal :=
  .next (s.answer (.word16 (encodeRgb565 r5 g6 b5)))

/-- FMT.RGB888 (R92): the byte of a channel plane is the unmodified intensity. -/
def execFmtRgb888 (v : Byte) (s : State) : Host.Outcome State Fault Refusal :=
  .next (s.answer (.byte v))

/-- FMT.RGB888Packed (R93): the word `rrrrrrrrggggggggbbbbbbbb`. -/
def execFmtRgb888packed (r8 g8 b8 : Byte) (s : State) : Host.Outcome State Fault Refusal :=
  .next (s.answer (.word24 (pack888P ⟨r8, g8, b8⟩)))

/-- FMT.DW (R95): the data word of the MUX lanes. -/
def execFmtDw (lanes : List LaneBits) (s : State) : Host.Outcome State Fault Refusal :=
  s.withInstance (decide (lanes.length = s.cfg.mux)) (s.answer (.nat (dataWordOfLanes lanes)))

/-- FMT.LW (R96): the logical line word. -/
def execFmtLw (sig : Sig) (s : State) : Host.Outcome State Fault Refusal :=
  s.withInstance (s.cfg.sigFits sig) (s.answer (.nat (s.cfg.lineWord sig)))

/-- FMT.GPIO (R97): the physical word through the configured pinout. -/
def execFmtGpio (sig : Sig) (s : State) : Host.Outcome State Fault Refusal :=
  s.withInstance (s.cfg.sigFits sig) (s.answer (.nat (s.cfg.pinout.gpio sig)))

/-- ENUM.ERR (60_exceptions.md R250). -/
def execEnumErr (e : ErrCode) (s : State) : Host.Outcome State Fault Refusal :=
  .next (s.answer (.nat e.code.toNat))

/-- ENUM.FSM (R100). -/
def execEnumFsm (f : Fsm) (s : State) : Host.Outcome State Fault Refusal :=
  .next (s.answer (.nat f.code.toNat))

/-- ENUM.TRACE (R106): the triple of a line event. -/
def execEnumTrace (sig : Sig) (dur : Nat) (status : Status) (s : State) : Host.Outcome State Fault Refusal :=
  s.withInstance (s.cfg.sigFits sig) (s.answer (.trace ⟨s.cfg.lineWord sig, dur, status⟩))

end Sys2Proof.Machine
end

