-- ==== Sys2Proof/Machine/Formats.lean ====
section
/-! DEFINITION. The pixel-format converter as operations of their own (41_pixel_formats.md). The per-pixel conversions are
pure (R140); PACKFRAME writes PK only (R153) and UNPACKFRAME writes U only (R154). -/

namespace Sys2Proof.Machine

/-- DOWN (R142). -/
def execDown (v : Byte) (n : FieldWidth) (s : State) : Host.Outcome State Fault Refusal :=
  .next (s.answer (.nat (down v.toNat n)))

/-- UP (R146); its operand is a level of `n` bits. -/
def execUp (q : Nat) (n : FieldWidth) (s : State) : Host.Outcome State Fault Refusal :=
  guarded (decide (q < 2 ^ n.bits)) .badOperand (s.answer (.nat (up q n)))

/-- PACK565 (R143). -/
def execPack565 (r8 g8 b8 : Byte) (s : State) : Host.Outcome State Fault Refusal :=
  .next (s.answer (.word16 (pack565 ⟨r8, g8, b8⟩)))

/-- UNPACK565 (R147). -/
def execUnpack565 (w16 : BitVec 16) (s : State) : Host.Outcome State Fault Refusal :=
  .next (s.answer (.pixel (unpack565 w16)))

/-- PACK888 (R149): the bytes for the R, G and B planes. -/
def execPack888 (r8 g8 b8 : Byte) (s : State) : Host.Outcome State Fault Refusal :=
  .next (s.answer (.bytes (pack888 ⟨r8, g8, b8⟩).bytes))

/-- UNPACK888 (R150). -/
def execUnpack888 (rp gp bp : Byte) (s : State) : Host.Outcome State Fault Refusal :=
  .next (s.answer (.pixel (unpack888 rp gp bp)))

/-- PACK888P (R151). -/
def execPack888p (r8 g8 b8 : Byte) (s : State) : Host.Outcome State Fault Refusal :=
  .next (s.answer (.word24 (pack888P ⟨r8, g8, b8⟩)))

/-- UNPACK888P (R152). -/
def execUnpack888p (w24 : BitVec 24) (s : State) : Host.Outcome State Fault Refusal :=
  .next (s.answer (.pixel (unpack888P w24)))

/-- PACKFRAME (R153); its operand has the layout of FB. -/
def execPackframe (frame : List Byte) (s : State) : Host.Outcome State Fault Refusal :=
  s.withInstance (decide (frame.length = 3 * s.cfg.npix)) (s.packInto frame)

/-- UNPACKFRAME (R154); its operand has the layout of PK. -/
def execUnpackframe (pk : List Byte) (s : State) : Host.Outcome State Fault Refusal :=
  s.withInstance (decide (pk.length = s.cfg.pkSize)) (s.unpackInto pk)

end Sys2Proof.Machine
end

