-- ==== Sys2Proof/Machine/Geometry.lean ====
section
/-! DEFINITION. The geometry operations as operations of their own (40_geometry.md): they write no state of the block
(R130), only the model's RESULT (log 10). -/

namespace Sys2Proof.Machine

/-- GEOM (R121). -/
def execGeom (width height : Int) (nAddr : Nat) (orient : Orient) (mirror : Bool) (s : State) :
    Host.Outcome State Fault Refusal :=
  match geometryOf width height nAddr orient mirror with
  | .ok g => .next (s.answer (.geometry g))
  | .error e => .next (s.answer (.code e))

/-- A logical or physical coordinate of the configured panel (R126). -/
def State.coordInRange (s : State) (x y : Nat) : Bool := decide (x < s.cfg.width) && decide (y < s.cfg.height)

/-- A place of the configured panel (R127). -/
def State.placeInRange (s : State) (a l c : Nat) : Bool :=
  decide (a < s.cfg.nrows) && decide (l < s.cfg.mux) && decide (c < s.cfg.width)

/-- ORI (R124). -/
def execOri (x y : Nat) (s : State) : Host.Outcome State Fault Refusal :=
  s.withInstance (s.coordInRange x y) (s.answer (.coord (s.cfg.ori x y)))

/-- SPLIT (R125). -/
def execSplit (px py : Nat) (s : State) : Host.Outcome State Fault Refusal :=
  s.withInstance (s.coordInRange px py) (s.answer (.place (s.cfg.split px py)))

/-- MAP (R126). -/
def execMap (x y : Nat) (s : State) : Host.Outcome State Fault Refusal :=
  s.withInstance (s.coordInRange x y) (s.answer (.place (s.cfg.map x y)))

/-- UNMAP (R127). -/
def execUnmap (a l c : Nat) (s : State) : Host.Outcome State Fault Refusal :=
  s.withInstance (s.placeInRange a l c) (s.answer (.coord (s.cfg.unmap a l c)))

end Sys2Proof.Machine
end

