-- ==== Sys2Proof/Machine/Scheduler.lean ====
section
/-! DEFINITION. The output scheduler (43_output_scheduler.md) and the error entry (60_exceptions.md R256, R257). A micro-step
runs where its position selects it (30_encoding.md R102); a part of a micro-step runs where the micro-step that contains it
does (log 18). -/

namespace Sys2Proof.Machine

/-- LineWrite (R196) as an operation of its own, in the state in which the writing micro-steps call it. -/
def execLineWrite (sig : Sig) (dur : Nat) (s : State) : Host.Outcome State Fault Refusal :=
  if s.fsm = .streamingFrame then
    guarded (s.cfg.sigFits sig) .badOperand ((s.lineWrite sig dur).2.answer (.answer (s.lineWrite sig dur).1))
  else .refused .notSelected

/-- SCHED.START (R205). -/
def execSchedStart (s : State) : Host.Outcome State Fault Refusal :=
  guarded (s.selects .schedStart) .notSelected (s.goto .streamingFrame)

/-- SCHED.TAKE (R199), at the cycle-start position. -/
def execSchedTake (s : State) : Host.Outcome State Fault Refusal :=
  guarded s.atCycleStart .notSelected s.take

/-- SCHED.SELECT (R198), with SCHED.TAKE in the same micro-step at a cycle start. -/
def execSchedSelect (s : State) : Host.Outcome State Fault Refusal :=
  guarded (s.selects .schedSelect) .notSelected
    ((if s.atCycleStart then s.take else s).writeOrTrap ⟨false, false, s.row, 0⟩ s.params.tSetup State.nextPhase)

/-- SCHED.DATA (R198): the column's data word with the clock low. -/
def execSchedData (s : State) : Host.Outcome State Fault Refusal :=
  guarded (s.selects .schedData) .notSelected
    (s.writeOrTrap ⟨false, false, s.row, s.columnWord⟩ s.params.tSetup State.nextPhase)

/-- SCHED.CLOCK (R198): the same data word with the clock high. -/
def execSchedClock (s : State) : Host.Outcome State Fault Refusal :=
  guarded (s.selects .schedClock) .notSelected
    (s.writeOrTrap ⟨true, false, s.row, s.columnWord⟩ s.params.tSetup State.nextPhase)

/-- SCHED.LATCH (R198). -/
def execSchedLatch (s : State) : Host.Outcome State Fault Refusal :=
  guarded (s.selects .schedLatch) .notSelected
    (s.writeOrTrap ⟨false, true, s.row, 0⟩ s.params.tSetup State.nextPhase)

/-- SCHED.HOLD (R200): the write that carries the plane's weight. -/
def execSchedHold (s : State) : Host.Outcome State Fault Refusal :=
  guarded (s.selects .schedHold) .notSelected
    (s.writeOrTrap ⟨false, false, s.row, 0⟩ (planeDur s.plane) fun t => t.goto .rowAdvance)

/-- SCHED.ROWADV (R201). -/
def execSchedRowadv (s : State) : Host.Outcome State Fault Refusal :=
  guarded (s.selects .schedRowadv) .notSelected
    ({ s with row := if s.k + 1 = s.params.depth then (s.row + 1) % s.cfg.nrows else s.row }.goto .planeAdvance)

/-- K <- (K + 1) mod B, PHASE <- 0 (R202). -/
def State.nextPlane (s : State) : State := { s with k := (s.k + 1) % s.params.depth, phase := 0 }

/-- SCHED.PLANEADV (R202), where a stop request takes effect. -/
def execSchedPlaneadv (s : State) : Host.Outcome State Fault Refusal :=
  guarded (s.selects .schedPlaneadv) .notSelected
    (if s.stopreq then s.nextPlane.stopEntry else s.nextPlane.goto .streamingFrame)

/-- The stop entry is being performed: SCHED.PLANEADV with STOPREQ = 1 (R202, R204). -/
def State.atStopEntry (s : State) : Bool := decide (s.fsm = .planeAdvance) && s.stopreq

/-- STOPENTRY (R204) as an operation of its own. -/
def execStopentry (s : State) : Host.Outcome State Fault Refusal :=
  guarded s.atStopEntry .notSelected s.stopEntry

/-- TRAP.DEVERR (60_exceptions.md R256) as an operation of its own, where a writing micro-step performs it. -/
def execTrapDeverr (s : State) : Host.Outcome State Fault Refusal :=
  guarded (decide (s.fsm = .streamingFrame)) .notSelected s.deviceErrorEntry

/-- FORCESAFE (60_exceptions.md R257) as an operation of its own, where TRAP.DEVERR or STOPENTRY performs it. -/
def execForcesafe (s : State) : Host.Outcome State Fault Refusal :=
  guarded (decide (s.fsm = .streamingFrame) || s.atStopEntry) .notSelected s.forceSafe

end Sys2Proof.Machine
end

