-- ==== Sys2Proof/Machine/Dispatch.lean ====
section
/-! DEFINITION. The dispatcher: one arm per operation of the table, each one call of its meaning. -/

namespace Sys2Proof.Machine

def exec (i : Instr) (s : State) : Host.Outcome State Fault Refusal :=
  match i with
  -- host commands
  | .construct fbW fbH width height nAddr orient mirror pinout colorspace => Sys2Proof.Machine.execConstruct fbW fbH width height nAddr orient mirror pinout colorspace s
  | .showFrame => Sys2Proof.Machine.execShow s
  | .stopReq => Sys2Proof.Machine.execStopReq s
  | .stopAck => Sys2Proof.Machine.execStopAck s
  | .poll => Sys2Proof.Machine.execPoll s
  | .fbwrite x y ch v => Sys2Proof.Machine.execFbwrite x y ch v s
  | .fbread x y ch => Sys2Proof.Machine.execFbread x y ch s
  | .cmdReserved6 => Sys2Proof.Machine.execCmdReserved6 s
  | .cmdReserved7 => Sys2Proof.Machine.execCmdReserved7 s
  -- geometry
  | .geom width height nAddr orient mirror => Sys2Proof.Machine.execGeom width height nAddr orient mirror s
  | .ori x y => Sys2Proof.Machine.execOri x y s
  | .split px py => Sys2Proof.Machine.execSplit px py s
  | .map x y => Sys2Proof.Machine.execMap x y s
  | .unmap a l c => Sys2Proof.Machine.execUnmap a l c s
  -- pixel formats
  | .down v n => Sys2Proof.Machine.execDown v n s
  | .up q n => Sys2Proof.Machine.execUp q n s
  | .pack565 r8 g8 b8 => Sys2Proof.Machine.execPack565 r8 g8 b8 s
  | .unpack565 w16 => Sys2Proof.Machine.execUnpack565 w16 s
  | .pack888 r8 g8 b8 => Sys2Proof.Machine.execPack888 r8 g8 b8 s
  | .unpack888 rp gp bp => Sys2Proof.Machine.execUnpack888 rp gp bp s
  | .pack888p r8 g8 b8 => Sys2Proof.Machine.execPack888p r8 g8 b8 s
  | .unpack888p w24 => Sys2Proof.Machine.execUnpack888p w24 s
  | .packframe frame => Sys2Proof.Machine.execPackframe frame s
  | .unpackframe pk => Sys2Proof.Machine.execUnpackframe pk s
  -- bit-plane encoder
  | .bit e8 p => Sys2Proof.Machine.execBit e8 p s
  | .encode u => Sys2Proof.Machine.execEncode u s
  | .dur p => Sys2Proof.Machine.execDur p s
  | .planeidx k => Sys2Proof.Machine.execPlaneidx k s
  -- output scheduler
  | .lineWrite sig dur => Sys2Proof.Machine.execLineWrite sig dur s
  | .schedStart => Sys2Proof.Machine.execSchedStart s
  | .schedTake => Sys2Proof.Machine.execSchedTake s
  | .schedSelect => Sys2Proof.Machine.execSchedSelect s
  | .schedData => Sys2Proof.Machine.execSchedData s
  | .schedClock => Sys2Proof.Machine.execSchedClock s
  | .schedLatch => Sys2Proof.Machine.execSchedLatch s
  | .schedHold => Sys2Proof.Machine.execSchedHold s
  | .schedRowadv => Sys2Proof.Machine.execSchedRowadv s
  | .schedPlaneadv => Sys2Proof.Machine.execSchedPlaneadv s
  | .stopentry => Sys2Proof.Machine.execStopentry s
  | .trapDeverr => Sys2Proof.Machine.execTrapDeverr s
  | .forcesafe => Sys2Proof.Machine.execForcesafe s
  -- data formats and enumerations
  | .fmtPix888 r8 g8 b8 => Sys2Proof.Machine.execFmtPix888 r8 g8 b8 s
  | .fmtRgb565 r5 g6 b5 => Sys2Proof.Machine.execFmtRgb565 r5 g6 b5 s
  | .fmtRgb888 v => Sys2Proof.Machine.execFmtRgb888 v s
  | .fmtRgb888packed r8 g8 b8 => Sys2Proof.Machine.execFmtRgb888packed r8 g8 b8 s
  | .fmtDw lanes => Sys2Proof.Machine.execFmtDw lanes s
  | .fmtLw sig => Sys2Proof.Machine.execFmtLw sig s
  | .fmtGpio sig => Sys2Proof.Machine.execFmtGpio sig s
  | .enumErr e => Sys2Proof.Machine.execEnumErr e s
  | .enumFsm f => Sys2Proof.Machine.execEnumFsm f s
  | .enumTrace sig dur status => Sys2Proof.Machine.execEnumTrace sig dur status s

end Sys2Proof.Machine
end

