-- ==== Sys2Proof/Machine/Turns.lean ====
section
/-! DEFINITION. Performing what a turn comes to (Ops.lean), scheduler micro-steps and runs of them as functions of their own,
and the pseudo-operations of 30_encoding.md R105 by their expansions. -/

namespace Sys2Proof.Machine

/-- Run the operation, or none, or stop at bytes that are no word. -/
def perform (f : Fetched) : Host.Outcome State Fault Refusal :=
  match f with
  | .run i s => exec i s
  | .wait s => .next s
  | .bad r => .fault r

/-- Go on from an outcome's next state. -/
def andThen (o : Host.Outcome State Fault Refusal) (f : State → Host.Outcome State Fault Refusal) :
    Host.Outcome State Fault Refusal :=
  match o with
  | .next s => f s
  | .fault r => .fault r
  | .refused r => .refused r

/-- The scheduler's turn alone: its enabled micro-step, or a wait (43_output_scheduler.md R205, R206). -/
def microStep (s : State) : Host.Outcome State Fault Refusal := perform s.schedulerTurn

/-- `run(n)`: `n` scheduler turns in a row, stopping at the first outcome that is no next state. -/
def microSteps : Nat → State → Host.Outcome State Fault Refusal
  | 0, s => .next s
  | n + 1, s => andThen (microStep s) (microSteps n)

/-- Scheduler turns until a state meets `stop`, which is looked at before each; at most `n` of them. -/
def microStepsUntil (stop : State → Bool) : Nat → State → Host.Outcome State Fault Refusal
  | 0, s => .next s
  | n + 1, s => if stop s then .next s else andThen (microStep s) (microStepsUntil stop n)

/-- The micro-steps of one step: select, a data and a clock write for each column, latch, hold, and the two advances
(43_output_scheduler.md R192, R197). -/
def State.stepMicroSteps (s : State) : Nat := 2 * s.cfg.width + 5

/-- The micro-steps of a whole refresh cycle: NROWS * B steps (R193). -/
def State.cycleMicroSteps (s : State) : Nat := s.cfg.nrows * s.params.depth * s.stepMicroSteps

/-- `step*`: scheduler turns until no micro-step is enabled (as 95_test_vectors.md P3 uses it); a scheduler that goes on
running is followed for `n` of them. -/
def stepStar (n : Nat) (s : State) : Host.Outcome State Fault Refusal := microStepsUntil (fun t => t.selected.isNone) n s

/-- `run_cycle()`: to the next cycle boundary. A scheduler in Idle starts first; then the cycle in progress, or the one about
to begin, is run to its end, or to Idle where a stop or a failure ends it. -/
def runCycle (s : State) : Host.Outcome State Fault Refusal :=
  andThen (if s.fsm = .idle then microStep s else .next s) fun s1 =>
    andThen (microStep s1)
      (microStepsUntil (fun t => t.atCycleStart || decide (t.fsm = .idle)) s1.cycleMicroSteps)

/-- `fail_at(n)`: the device answers fail to the n-th line write from now (1 is the next), ok to all others. -/
def State.failAt (s : State) (n : Nat) : State :=
  { s with
    answers := match n with
      | 0 => []
      | m + 1 => List.replicate m .ok ++ [.fail]
    answersRest := some .ok }

/-- A device that answers ok to every line write from now. -/
def State.deviceAlwaysOk (s : State) : State := { s with answers := [], answersRest := some .ok }

/-- `stop()`: STOP.req, scheduler micro-steps until FSM = Idle, which one step's micro-steps reach (44_driver_commands.md
R236), then STOP.ack. -/
def stopCall (s : State) : Host.Outcome State Fault Refusal :=
  andThen (exec .stopReq s) fun s1 =>
    andThen (microStepsUntil (fun t => decide (t.fsm = .idle)) s1.stepMicroSteps s1) (exec .stopAck)

/-- "teardown" is `stop()`. -/
def teardown (s : State) : Host.Outcome State Fault Refusal := stopCall s

/-- The physical word on the pins, a function of OUT and PINOUT (10_state.md R28). -/
def State.pins (s : State) : Nat := s.cfg.pinout.gpio s.out

/-- Put commands at the end of the host's program; an operation without a word of its own is no command. -/
def State.offer (s : State) (is : List Instr) : State := { s with program := s.program ++ is.filterMap encode }

/-- `fb[x,y] = (r,g,b)`: three FBWRITEs. -/
def fbSet (x y : Nat) (p : Pixel) : List Instr := [.fbwrite x y 0 p.r8, .fbwrite x y 1 p.g8, .fbwrite x y 2 p.b8]

/-- `show(frame)`: FBWRITE of every byte of a frame of a `w` by `h` framebuffer, then SHOW. -/
def showOf (w h : Nat) (frame : List Byte) : List Instr :=
  ((List.range h).flatMap fun y => (List.range w).flatMap fun x => fbSet x y (pixelAt frame (y * w + x))) ++ [.showFrame]

/-- `fill(r,g,b)`: FBWRITE of every pixel. -/
def fill (w h : Nat) (p : Pixel) : List Instr :=
  (List.range h).flatMap fun y => (List.range w).flatMap fun x => fbSet x y p

end Sys2Proof.Machine
end

