-- ==== Sys2Proof/Machine/Step.lean ====
section
/-! DEFINITION. One step of the machine: the next turn is taken (Ops.lean, `State.fetch`) and performed (Turns.lean). -/

namespace Sys2Proof.Machine

/-- One step (00_scope.md R11): one host command, one scheduler micro-step, or a wait of the agent whose turn it is. -/
def step (s : State) : Host.Outcome State Fault Refusal := perform s.fetch

/-- `s` with a table word as the host's next command, and the host to move next (log 5). -/
def State.withFetchWord (s : State) (nbits w : Nat) : State :=
  { s with turns := .host :: s.turns, program := tableParcel nbits w :: s.program }

end Sys2Proof.Machine
end

