-- ==== Sys2Proof/Machine/Records.lean ====
section
/-! DEFINITION. The step records of 43_output_scheduler.md R207: the record of a step, the records of a run, and their recovery
from TRACE. -/

namespace Sys2Proof.Machine

/-- The record of a step (R207): row address, plane bit index, the data words of the columns, the hold's duration. -/
structure StepRecord where
  row : Nat
  plane : Nat
  words : List Nat
  dur : Nat
deriving DecidableEq, Repr

/-- `(a, i, [DW[i][a][0], ...], DUR(i))` for row address `a` and sequence index `k`, from DW. -/
def State.stepRecord (s : State) (a k : Nat) : StepRecord :=
  let i := s.params.planeIdx k
  ⟨a, i, (List.range s.cfg.width).map (s.dwWord i a), planeDur i⟩

/-- The same record as a function of the frame, CFG and the build parameters. -/
def Cfg.frameRecord (c : Cfg) (p : BuildParams) (frame : List Byte) (a k : Nat) : StepRecord :=
  let i := p.planeIdx k
  ⟨a, i, (List.range c.width).map (c.dataWord p.depth (c.unpackFrame (c.packFrame frame)) i a), planeDur i⟩

/-- The frame the step in progress, or about to begin, shows: at a cycle start the waiting one, if there is one (R199). -/
def State.frameShown (s : State) : List Byte :=
  if s.atCycleStart && s.pending.valid then s.pending.frame else s.active.frame

/-- The step-record sequence of the run of `n` steps of the machine: the records of its completed steps, in order. A step is
completed by its hold, answered ok. -/
def stepRecords : Nat → State → List StepRecord
  | 0, _ => []
  | n + 1, s =>
    match step s with
    | .next t =>
      (if s.fsm = .streamingFrame ∧ t.fsm = .rowAdvance then [s.stepRecord s.row s.k] else []) ++ stepRecords n t
    | .fault _ => []
    | .refused _ => []

/-! ### Recovery from TRACE -/

/-- The field DATA of a logical line word (30_encoding.md R96). -/
def Cfg.dataOf (c : Cfg) (lw : Nat) : Nat := lw % 2 ^ c.ndata

/-- The field ADDR of a logical line word (R96). -/
def Cfg.addrOf (c : Cfg) (lw : Nat) : Nat := lw / 2 ^ c.ndata % 2 ^ c.nAddr

/-- The record of a whole step from its `2*WIDTH + 3` writes: ADDR of the select, DATA of the data writes, the duration of
the hold, which is `2^i` for plane bit index `i` (42_bitplane_encoder.md R173). -/
def Cfg.recordOf (c : Cfg) (writes : List TraceEntry) : StepRecord :=
  let entry := fun n => writes.getD n ⟨0, 0, .ok⟩
  let hold := (entry (2 * c.width + 2)).dur
  ⟨c.addrOf (entry 0).lw, hold.log2, (List.range c.width).map fun col => c.dataOf (entry (1 + 2 * col)).lw, hold⟩

/-- Go through TRACE from the start of a step, `writes` being those of the step so far; a failed or forced write ends a step
that is not whole. -/
def Cfg.recoverFrom (c : Cfg) : List TraceEntry → List TraceEntry → List StepRecord
  | _, [] => []
  | writes, e :: rest =>
    if e.status = .ok then
      if writes.length + 1 = 2 * c.width + 3 then c.recordOf (writes ++ [e]) :: c.recoverFrom [] rest
      else c.recoverFrom (writes ++ [e]) rest
    else c.recoverFrom [] rest

/-- The step records that a piece of TRACE holds, from the start of a step. -/
def Cfg.recover (c : Cfg) (trace : List TraceEntry) : List StepRecord := c.recoverFrom [] trace

end Sys2Proof.Machine
end

