-- ==== Sys2Proof/Safety.lean ====
section
/-! DEFINITION. What the statements are made of: the invariants of the block that its rules state (10_state.md R24, R26, R28,
60_exceptions.md R255), the line writes of a step and of a cycle (43_output_scheduler.md R197, R193), and a finished
run (70_reset_and_hazards.md R287). -/

namespace Sys2Proof.Machine

/-- The geometry GEOM accepts (40_geometry.md R121), with the pinout CONSTRUCT requires (R97). -/
structure Cfg.Valid (c : Cfg) (p : BuildParams) : Prop where
  width_pos : 0 < c.width
  height_pos : 0 < c.height
  rows_divide : c.nrows ∣ c.height
  quarter_square : c.orient.quarter = true → c.width = c.height
  pinout_ok : c.pinoutOk (c.nlines p) c.pinout = true

/-- PK, U and DW are what the pipeline makes of ACTIVE (10_state.md R32, 41_pixel_formats.md R141), and ACTIVE is a frame
published since the last CONSTRUCT. -/
structure State.Streamed (s : State) : Prop where
  frame_size : s.active.frame.length = 3 * s.cfg.npix
  packed : s.pk = s.cfg.packFrame s.active.frame
  unpacked : s.u = s.cfg.unpackFrame s.pk
  planes : s.dw = s.cfg.encodeFrame s.params.depth s.u
  id_pos : 1 ≤ s.active.id
  id_le : s.active.id ≤ s.showcnt

/-- The invariant of the block. -/
structure State.Inv (s : State) : Prop where
  /-- `1 <= B <= 8` (00_scope.md R8). -/
  depth_pos : 1 ≤ s.params.depth
  depth_le : s.params.depth ≤ 8
  /-- FB keeps its canonical form and its size. -/
  fb_wf : Memory.wf s.fb
  fb_size : ∀ e ∈ s.fb, e.1 < 3 * (s.fbW * s.fbH)
  /-- Without an instance the scheduler is in Idle and every flag is 0 (10_state.md R36, 44_driver_commands.md R236). -/
  no_instance : s.life ≠ .constructed →
    s.fsm = .idle ∧ s.stopreq = false ∧ s.errflag = false ∧ s.pending.valid = false
  /-- An instance has a valid configuration and a framebuffer of its dimensions (10_state.md R29). -/
  cfg_valid : s.life = .constructed → s.cfg.Valid s.params ∧ s.fbW = s.cfg.width ∧ s.fbH = s.cfg.height
  /-- `FSM = Idle` implies `ROW = K = PHASE = 0` (10_state.md R24). -/
  idle_position : s.fsm = .idle → s.row = 0 ∧ s.k = 0 ∧ s.phase = 0
  /-- `FSM = Idle` implies `OUT` is all zero (10_state.md R28). -/
  idle_lines : s.fsm = .idle → s.out = Sig.allOff
  /-- The position is in range (10_state.md R24). -/
  row_lt : s.row < s.cfg.nrows
  k_lt : s.k < s.params.depth
  phase_le : s.phase ≤ 2 * s.cfg.width + 2
  /-- PHASE keeps its value from the hold until SCHED.PLANEADV zeroes it (43_output_scheduler.md R200). -/
  advance_phase : s.fsm = .rowAdvance ∨ s.fsm = .planeAdvance → s.phase = 2 * s.cfg.width + 2
  /-- `ERRFLAG = 1` exactly when `ERR = 4`, and ERR holds 0 or 4 (10_state.md R26). -/
  err_flag : s.errflag = true ↔ s.err = .deviceError
  err_codes : s.err = .ok ∨ s.err = .deviceError
  /-- `ERRFLAG = 1` implies `FSM = Idle` and `PENDING.valid = 0` (60_exceptions.md R255). -/
  err_idle : s.errflag = true → s.fsm = .idle ∧ s.pending.valid = false
  /-- A waiting frame is the last one published, and whole (10_state.md R27, R30). -/
  pending_last : s.pending.valid = true →
    s.pending.frame.length = 3 * s.cfg.npix ∧ s.pending.id = s.showcnt ∧ 1 ≤ s.showcnt
  /-- While the scheduler runs, what it streams comes from ACTIVE, unless it is about to take the first frame (R199). -/
  streaming_source : s.fsm ≠ .idle → (s.atCycleStart = true ∧ s.pending.valid = true) ∨ s.Streamed
  /-- Inside a cycle a waiting frame is newer than the one displayed (20_memory.md R75). -/
  pending_newer : s.fsm ≠ .idle → s.atCycleStart = false → s.pending.valid = true → s.active.id < s.pending.id
  /-- OUT's ADDR and DATA fit their fields (10_state.md R28). -/
  out_fits : s.cfg.sigFits s.out = true

/-- The signal record of the line write at a PHASE of the step in progress (43_output_scheduler.md R197). -/
def State.sigAt (s : State) (phase : Nat) : Sig :=
  if phase = 0 then ⟨false, false, s.row, 0⟩
  else if phase < 2 * s.cfg.width + 1 then
    ⟨decide (phase % 2 = 0), false, s.row, s.dwWord s.plane s.row ((phase - 1) / 2)⟩
  else if phase = 2 * s.cfg.width + 1 then ⟨false, true, s.row, 0⟩
  else ⟨false, false, s.row, 0⟩

/-- The nominal duration of the line write at a PHASE (R197). -/
def State.durAt (s : State) (phase : Nat) : Nat :=
  if phase = 2 * s.cfg.width + 2 then 2 ^ s.plane else s.params.tSetup

/-- The TRACE entries of a whole step whose writes are all answered ok (R197, 30_encoding.md R106). -/
def State.stepTrace (s : State) : List TraceEntry :=
  (List.range (2 * s.cfg.width + 3)).map fun p => ⟨s.cfg.lineWord (s.sigAt p), s.durAt p, .ok⟩

/-- What the lines carry between two micro-steps: inside a step, the record of the write before this PHASE; at PHASE 0 and
in the advance states, clock, latch and data low (R197, R208). -/
structure State.LinesFollow (s : State) : Prop where
  within : s.fsm = .streamingFrame → s.phase ≠ 0 → s.out = s.sigAt (s.phase - 1)
  between : s.fsm = .streamingFrame ∧ s.phase = 0 ∨ s.fsm = .rowAdvance ∨ s.fsm = .planeAdvance →
    s.out.clk = false ∧ s.out.lat = false ∧ s.out.data = 0

/-- The device answers ok to the next `n` line writes. -/
def State.DeviceOk (s : State) (n : Nat) : Prop := ∀ k < n, s.answerAt k = .ok

/-- The last id in DISPLAYED is that of the frame being streamed (10_state.md R33). -/
def State.Shows (s : State) : Prop := s.displayed.getLast? = some s.active.id

/-- A finished run (70_reset_and_hazards.md R287). -/
def State.Finished (s : State) : Prop := s.fsm = .idle ∧ s.stopreq = false ∧ s.life ≠ .constructed

/-- Two states that may differ in FB's bytes only. -/
def State.SameButFb (s t : State) : Prop := t = { s with fb := t.fb, fbGen := t.fbGen }

end Sys2Proof.Machine
end

