-- ==== Sys2Proof/Certificates/Slice0/Obligations.lean ====
section
/-! DEFINITION. The statements about the block, in the order of the spec's files. A meaning's next state is written out as a
record update of the state before, so each such statement says the result, that the instruction completes, and its frame
(every field not named keeps its value) in one equation. -/

open Sys2Proof Sys2Proof.Machine

/-! ### The state and the step -/

/-- 10_state.md R36, 70_reset_and_hazards.md R280: the values the spec gives for reset. -/
def Obligations.ResetIsTheStateBeforeConstruction : Prop :=
  let s := State.reset
  s.life = .unconstructed ∧ s.fsm = .idle ∧ s.row = 0 ∧ s.k = 0 ∧ s.phase = 0 ∧
    s.stopreq = false ∧ s.errflag = false ∧ s.pending.valid = false ∧ s.err = .ok ∧ s.showcnt = 0 ∧
    s.out = ⟨false, false, 0, 0⟩ ∧ s.trace = [] ∧ s.displayed = []

/-- The invariants of the block hold at reset (the values reset leaves to the model are logs 12, 14 and 15). -/
def Obligations.ResetMeetsTheInvariants : Prop := State.reset.Inv ∧ State.reset.LinesFollow

/-- Every step keeps the invariant of the block: 10_state.md R24, R26 and R28, 60_exceptions.md R255 and the rest of
`State.Inv`. -/
def Obligations.StepKeepsTheInvariant : Prop := ∀ s t : State, s.Inv → step s = .next t → t.Inv

/-- Between two micro-steps the lines carry what the table of 43_output_scheduler.md R197 says, and every step keeps
that. -/
def Obligations.StepKeepsTheLines : Prop :=
  ∀ s t : State, s.Inv → s.LinesFollow → step s = .next t → t.LinesFollow

/-- The step runs the decoded instruction. When it is the host's turn, it is not inside `stop()`, and its next word decodes to
`i`, the step is `i`, with the turn and the word used up (the model's own input lists, logs 3 and 5); with no word left the
host waits, and bytes that are no word, or that leave bytes over, fault by name (log 31). When it is the scheduler's turn,
the step is the micro-step the position selects, and with none selected the scheduler waits (43_output_scheduler.md R205).
Past the end of the list of turns, whoever moves is the free value's (log 3). -/
def Obligations.StepRunsTheDecodedInstruction : Prop :=
  ∀ (s : State) (ts : List Turn),
    (s.turns = .host :: ts → s.stopreq = false →
      (s.program = [] → step s = .next { s with turns := ts }) ∧
      ∀ (p : Parcel) (rest : List Parcel), s.program = p :: rest →
        (∀ i, decode p.space p.bytes = .ok (i, []) → step s = exec i { s with turns := ts, program := rest }) ∧
        (∀ i b bs, decode p.space p.bytes = .ok (i, b :: bs) → step s = .fault .trailingBytes) ∧
        (∀ e, decode p.space p.bytes = .error e → step s = .fault (.badWord e))) ∧
    (s.turns = .scheduler :: ts →
      (∀ i, s.selected = some i → step s = exec i { s with turns := ts }) ∧
      (s.selected = none → step s = .next { s with turns := ts })) ∧
    (s.turns = [] →
      step s = step { s with turns := [Config.freeTurn s.freeTurns], freeTurns := s.freeTurns + 1 })

/-- While STOPREQ = 1 the host is inside `stop()` (44_driver_commands.md R235): its turn is STOP.ack once the scheduler is in
Idle, and before that a wait. A host that ends without `stop()` (R239) drops its program, and a live instance gets the stop
request. The model's own turns: logs 8 and 9. -/
def Obligations.HostInsideStopReturnsOrWaits : Prop :=
  ∀ (s : State) (ts : List Turn),
    (s.turns = .host :: ts → s.life = .constructed → s.stopreq = true →
      (s.fsm = .idle → step s = exec .stopAck { s with turns := ts }) ∧
      (s.fsm ≠ .idle → step s = .next { s with turns := ts })) ∧
    (s.turns = .hostEnds :: ts →
      (s.life = .constructed → s.stopreq = false →
        step s = .next { s with turns := ts, program := [], stopreq := true, result := .none }) ∧
      (s.life ≠ .constructed ∨ s.stopreq = true → step s = .next { s with turns := ts, program := [] }))

/-! ### Encodings (30_encoding.md) -/

/-- The command codes of R102 and the RGB565 word of R91, on words written out from the spec. -/
def Obligations.WordsOfTheSpecDecode : Prop :=
  decode .command [0b001] = .ok (.showFrame, []) ∧ decode .command [0b010] = .ok (.stopReq, []) ∧
    decode .command [0b011] = .ok (.poll, []) ∧
    decode .command [0b100, 1, 1, 2, 60] = .ok (.fbwrite 1 1 2 60, []) ∧
    decode .rgb565 [0xC7, 0xA2] = .ok (.fmtRgb565 20 22 7, []) ∧
    decodeTableWord 16 0b1010001011000111 = some (.fmtRgb565 20 22 7) ∧
    decodeTableWord 8 0b110 = some .cmdReserved6 ∧ decodeTableWord 8 0b111 = some .cmdReserved7

/-- Decoding an encoded instruction gives it back, with every operand at every value. -/
def Obligations.DecodeOfEncodeIsTheInstruction : Prop :=
  ∀ (i : Instr) (p : Parcel), encode i = some p → decode p.space p.bytes = .ok (i, [])

/-- Every word has one meaning and one spelling: bytes that decode, with nothing after them, are the instruction's
encoding. That a command's operands have one spelling is the model's choice (log 6: seven-bit groups, the shortest sequence
only, bits 7 to 3 of the command byte zero); R102 gives the 3-bit CMD only. -/
def Obligations.EncodeOfDecodeIsTheWord : Prop :=
  ∀ (sp : Space) (bs : List Byte) (i : Instr), decode sp bs = .ok (i, []) → encode i = some ⟨sp, bs⟩

/-- Codes the spec reserves are rejected by name: error codes 5 and up (60_exceptions.md R250) and FSM codes above 3 (R100). By the
model's choice (logs 6, 31) so are a command byte with a bit above the 3-bit CMD, and every word cut short: what is left of an
encoding once some of its last bytes are taken away, down to no bytes at all. The reserved commands 6 and 7 are no case of
this: they decode, and are refused when they are performed (R103). -/
def Obligations.ReservedCodesAreRejected : Prop :=
  (∀ (b : Byte) (bs : List Byte), 8 ≤ b.toNat → decode .command (b :: bs) = .error .highBits) ∧
  (∀ (b : Byte) (bs : List Byte), 5 ≤ b.toNat → decode .errCode (b :: bs) = .error .reservedCode) ∧
  (∀ (b : Byte) (bs : List Byte), 4 ≤ b.toNat → decode .fsmCode (b :: bs) = .error .reservedCode) ∧
  (∀ sp : Space, decode sp [] = .error .truncated) ∧
  ∀ (i : Instr) (p : Parcel) (bs rest : List Byte), encode i = some p → p.bytes = bs ++ rest → rest ≠ [] →
    decode p.space bs = .error .truncated

/-- R90 to R93: each pixel format's word from its fields, as a number. -/
def Obligations.PixelWordsHoldTheirFields : Prop :=
  ∀ s : State,
    (∀ r g b : Byte, exec (.fmtPix888 r g b) s = .next { s with result := .bytes [r, g, b] }) ∧
    (∀ (r : BitVec 5) (g : BitVec 6) (b : BitVec 5), ∃ w : BitVec 16,
      exec (.fmtRgb565 r g b) s = .next { s with result := .word16 w } ∧
        w.toNat = r.toNat * 2 ^ 11 + g.toNat * 2 ^ 5 + b.toNat) ∧
    (∀ v : Byte, exec (.fmtRgb888 v) s = .next { s with result := .byte v }) ∧
    (∀ r g b : Byte, ∃ w : BitVec 24,
      exec (.fmtRgb888packed r g b) s = .next { s with result := .word24 w } ∧
        w.toNat = r.toNat * 2 ^ 16 + g.toNat * 2 ^ 8 + b.toNat)

/-- R95: bit `3*l + ch` of a data word is the plane bit of lane `l`, channel `ch`. R96: the logical line word has DATA, ADDR,
LAT and CLK in its fields and NSIG bits. -/
def Obligations.DataAndLineWordsHoldTheirFields : Prop :=
  ∀ s : State, s.life = .constructed →
    (∀ lanes : List LaneBits, lanes.length = s.cfg.mux →
      ∃ w, exec (.fmtDw lanes) s = .next { s with result := .nat w } ∧ w < 2 ^ s.cfg.ndata ∧
        ∀ l x, lanes[l]? = some x →
          w.testBit (3 * l) = x.r ∧ w.testBit (3 * l + 1) = x.g ∧ w.testBit (3 * l + 2) = x.b) ∧
    (∀ sig : Sig, sig.addr < 2 ^ s.cfg.nAddr → sig.data < 2 ^ s.cfg.ndata →
      ∃ w, exec (.fmtLw sig) s = .next { s with result := .nat w } ∧ w < 2 ^ s.cfg.nsig ∧
        w = sig.data + sig.addr * 2 ^ s.cfg.ndata + sig.lat.toNat * 2 ^ (s.cfg.ndata + s.cfg.nAddr)
          + sig.clk.toNat * 2 ^ (s.cfg.ndata + s.cfg.nAddr + 1))

/-- R97: the record is recovered from the physical word by reading each named line, every other line is 0, and under the
default pinout the physical word is the logical one. -/
def Obligations.PhysicalWordRecoversTheRecord : Prop :=
  ∀ (s : State) (sig : Sig), s.life = .constructed → sig.addr < 2 ^ s.cfg.nAddr → sig.data < 2 ^ s.cfg.ndata →
    s.cfg.pinoutOk (s.cfg.nlines s.params) s.cfg.pinout = true →
    ∃ w, exec (.fmtGpio sig) s = .next { s with result := .nat w } ∧
      w.testBit s.cfg.pinout.clk = sig.clk ∧ w.testBit s.cfg.pinout.lat = sig.lat ∧
      (∀ k line, s.cfg.pinout.addr[k]? = some line → w.testBit line = sig.addr.testBit k) ∧
      (∀ j line, s.cfg.pinout.data[j]? = some line → w.testBit line = sig.data.testBit j) ∧
      (∀ line, line ∉ s.cfg.pinout.lines → w.testBit line = false) ∧
      (s.cfg.pinout = s.cfg.defaultPinout → w = s.cfg.lineWord sig)

/-- R100, 60_exceptions.md R250, R106: the numbers of the error codes, the scheduler states and the line-event statuses, and
the triple of a line event. -/
def Obligations.EnumerationCodes : Prop :=
  ∀ s : State,
    exec (.enumErr .ok) s = .next { s with result := .nat 0 } ∧
    exec (.enumErr .invalidGeometry) s = .next { s with result := .nat 1 } ∧
    exec (.enumErr .unsupportedFormat) s = .next { s with result := .nat 2 } ∧
    exec (.enumErr .geometryMismatch) s = .next { s with result := .nat 3 } ∧
    exec (.enumErr .deviceError) s = .next { s with result := .nat 4 } ∧
    exec (.enumFsm .idle) s = .next { s with result := .nat 0 } ∧
    exec (.enumFsm .streamingFrame) s = .next { s with result := .nat 1 } ∧
    exec (.enumFsm .rowAdvance) s = .next { s with result := .nat 2 } ∧
    exec (.enumFsm .planeAdvance) s = .next { s with result := .nat 3 } ∧
    Status.ok.code = 0 ∧ Status.fail.code = 1 ∧ Status.forced.code = 2 ∧
    ∀ (sig : Sig) (dur : Nat) (st : Status),
      s.life = .constructed → sig.addr < 2 ^ s.cfg.nAddr → sig.data < 2 ^ s.cfg.ndata →
        exec (.enumTrace sig dur st) s = .next { s with result := .trace ⟨s.cfg.lineWord sig, dur, st⟩ }

/-! ### Geometry (40_geometry.md) -/

/-- R121: GEOM accepts exactly the geometries it describes and otherwise answers InvalidGeometry. -/
def Obligations.GeomChecksItsOperands : Prop :=
  ∀ (s : State) (width height : Int) (nAddr : Nat) (orient : Orient) (mirror : Bool),
    (0 < width ∧ 0 < height ∧ ((2 ^ nAddr : Nat) : Int) ∣ height ∧
        (orient = .r90 ∨ orient = .r270 → width = height) →
      exec (.geom width height nAddr orient mirror) s =
        .next { s with result := .geometry ⟨width.toNat, height.toNat, nAddr, orient, mirror⟩ }) ∧
    (¬(0 < width ∧ 0 < height ∧ ((2 ^ nAddr : Nat) : Int) ∣ height ∧
        (orient = .r90 ∨ orient = .r270 → width = height)) →
      exec (.geom width height nAddr orient mirror) s = .next { s with result := .code .invalidGeometry })

/-- R124 to R126: ORI for each orientation, after the mirror, SPLIT as the division of the physical row, and MAP as SPLIT of
ORI. -/
def Obligations.OriSplitAndMapFollowTheirTables : Prop :=
  ∀ (s : State) (x y : Nat), s.life = .constructed → x < s.cfg.width → y < s.cfg.height →
    (∀ xm, xm = (if s.cfg.mirror then s.cfg.width - 1 - x else x) →
      (s.cfg.orient = .normal → exec (.ori x y) s = .next { s with result := .coord ⟨xm, y⟩ }) ∧
      (s.cfg.orient = .r90 →
        exec (.ori x y) s = .next { s with result := .coord ⟨s.cfg.width - 1 - y, xm⟩ }) ∧
      (s.cfg.orient = .r180 →
        exec (.ori x y) s =
          .next { s with result := .coord ⟨s.cfg.width - 1 - xm, s.cfg.height - 1 - y⟩ }) ∧
      (s.cfg.orient = .r270 →
        exec (.ori x y) s = .next { s with result := .coord ⟨y, s.cfg.width - 1 - xm⟩ })) ∧
    (∃ a l, exec (.split x y) s = .next { s with result := .place ⟨a, l, x⟩ } ∧
      a < 2 ^ s.cfg.nAddr ∧ y = l * 2 ^ s.cfg.nAddr + a) ∧
    ∀ px py, exec (.ori x y) s = .next { s with result := .coord ⟨px, py⟩ } →
      exec (.map x y) s = .next { s with result := .place ⟨py % 2 ^ s.cfg.nAddr, py / 2 ^ s.cfg.nAddr, px⟩ }

/-- R126 to R128: MAP and UNMAP stay in their ranges and are inverse to each other, so MAP is a bijection onto the panel's
places, for every orientation and mirror of a geometry GEOM accepts. -/
def Obligations.MapAndUnmapAreInverse : Prop :=
  ∀ s : State, s.life = .constructed → s.cfg.Valid s.params →
    (∀ x y, x < s.cfg.width → y < s.cfg.height →
      ∃ a l c, exec (.map x y) s = .next { s with result := .place ⟨a, l, c⟩ } ∧
        a < s.cfg.nrows ∧ l < s.cfg.mux ∧ c < s.cfg.width ∧
        exec (.unmap a l c) s = .next { s with result := .coord ⟨x, y⟩ }) ∧
    (∀ a l c, a < s.cfg.nrows → l < s.cfg.mux → c < s.cfg.width →
      ∃ x y, exec (.unmap a l c) s = .next { s with result := .coord ⟨x, y⟩ } ∧
        x < s.cfg.width ∧ y < s.cfg.height ∧
        exec (.map x y) s = .next { s with result := .place ⟨a, l, c⟩ })

/-! ### Pixel formats (41_pixel_formats.md) -/

/-- R142: DOWN is the level nearest to `v * (2^n - 1) / 255`, strictly nearer than any other level. -/
def Obligations.DownIsTheNearestLevel : Prop :=
  ∀ (s : State) (v : Byte) (n : FieldWidth), ∃ q, exec (.down v n) s = .next { s with result := .nat q } ∧
    q = (v.toNat * (2 ^ n.bits - 1) + 127) / 255 ∧ q < 2 ^ n.bits ∧
    ∀ m < 2 ^ n.bits, m ≠ q →
      ((255 * q : Int) - v.toNat * (2 ^ n.bits - 1)).natAbs < ((255 * m : Int) - v.toNat * (2 ^ n.bits - 1)).natAbs

/-- R146: UP is the intensity nearest to `q * 255 / (2^n - 1)`, strictly nearer than any other; a level that does not fit
its field is refused. -/
def Obligations.UpIsTheNearestIntensity : Prop :=
  ∀ (s : State) (q : Nat) (n : FieldWidth),
    (q < 2 ^ n.bits → ∃ v, exec (.up q n) s = .next { s with result := .nat v } ∧
      v = (q * 255 + (2 ^ n.bits - 1) / 2) / (2 ^ n.bits - 1) ∧ v ≤ 255 ∧
      ∀ m ≤ 255, m ≠ v →
        (((2 ^ n.bits - 1) * v : Int) - q * 255).natAbs < (((2 ^ n.bits - 1) * m : Int) - q * 255).natAbs) ∧
    (2 ^ n.bits ≤ q → exec (.up q n) s = .refused .badOperand)

/-- R143: the three fields of PACK565's word are DOWN of the three channels. -/
def Obligations.Pack565FieldsAreTheNearestLevels : Prop :=
  ∀ (s : State) (r g b : Byte), ∃ w : BitVec 16,
    exec (.pack565 r g b) s = .next { s with result := .word16 w } ∧
      w.toNat = (r.toNat * 31 + 127) / 255 * 2 ^ 11 + (g.toNat * 63 + 127) / 255 * 2 ^ 5
        + (b.toNat * 31 + 127) / 255

/-- R147: UNPACK565 gives UP of the three fields, for every 16-bit word. -/
def Obligations.Unpack565ChannelsAreTheNearestIntensities : Prop :=
  ∀ (s : State) (w : BitVec 16), ∃ p : Pixel,
    exec (.unpack565 w) s = .next { s with result := .pixel p } ∧
      p.r8.toNat = (w.toNat / 2 ^ 11 * 255 + 15) / 31 ∧
      p.g8.toNat = (w.toNat / 2 ^ 5 % 64 * 255 + 31) / 63 ∧
      p.b8.toNat = (w.toNat % 32 * 255 + 15) / 31

/-- R148: the laws of the RGB565 pair and the table of UP. -/
def Obligations.Rgb565PairLaws : Prop :=
  (∀ w : BitVec 16, pack565 (unpack565 w) = w) ∧
  (∀ v : Byte, ((up (down v.toNat .five) .five : Int) - v.toNat).natAbs ≤ 4 ∧
    ((up (down v.toNat .six) .six : Int) - v.toNat).natAbs ≤ 2) ∧
  (∀ p : Pixel, unpack565 (pack565 p) = p ↔
    (∃ q < 32, p.r8.toNat = up q .five) ∧ (∃ q < 64, p.g8.toNat = up q .six) ∧ (∃ q < 32, p.b8.toNat = up q .five)) ∧
  (∀ p : Pixel, pack565 (unpack565 (pack565 p)) = pack565 p) ∧
  (List.range 32).map (fun q => up q .five) =
    [0, 8, 16, 25, 33, 41, 49, 58, 66, 74, 82, 90, 99, 107, 115, 123, 132, 140, 148, 156, 165, 173, 181, 189, 197,
      206, 214, 222, 230, 239, 247, 255] ∧
  (List.range 64).map (fun q => up q .six) =
    [0, 4, 8, 12, 16, 20, 24, 28, 32, 36, 40, 45, 49, 53, 57, 61, 65, 69, 73, 77, 81, 85, 89, 93, 97, 101, 105, 109,
      113, 117, 121, 125, 130, 134, 138, 142, 146, 150, 154, 158, 162, 166, 170, 174, 178, 182, 186, 190, 194, 198,
      202, 206, 210, 215, 219, 223, 227, 231, 235, 239, 243, 247, 251, 255]

/-- R149 to R152: the 24-bit formats pass every byte through; PACK888P's word is `(r8 << 16) | (g8 << 8) | b8`, and
UNPACK888P takes it apart. -/
def Obligations.TwentyFourBitPixelsPassThrough : Prop :=
  ∀ (s : State) (r g b : Byte),
    exec (.pack888 r g b) s = .next { s with result := .bytes [r, g, b] } ∧
    exec (.unpack888 r g b) s = .next { s with result := .pixel ⟨r, g, b⟩ } ∧
    (∃ w : BitVec 24, exec (.pack888p r g b) s = .next { s with result := .word24 w } ∧
      w.toNat = r.toNat * 2 ^ 16 + g.toNat * 2 ^ 8 + b.toNat ∧
      exec (.unpack888p w) s = .next { s with result := .pixel ⟨r, g, b⟩ }) ∧
    ∀ w : BitVec 24, ∃ p : Pixel, exec (.unpack888p w) s = .next { s with result := .pixel p } ∧
      w.toNat = p.r8.toNat * 2 ^ 16 + p.g8.toNat * 2 ^ 8 + p.b8.toNat

/-- R153, in the layouts of 20_memory.md R63 to R66: PACKFRAME writes PK and nothing else, byte by byte, by the configured
format. -/
def Obligations.PackframeWritesPkByLayout : Prop :=
  ∀ (s : State) (frame : List Byte), s.life = .constructed → frame.length = 3 * s.cfg.npix →
    ∃ pk, exec (.packframe frame) s = .next { s with pk := pk } ∧
      (s.cfg.format = .rgb565 → pk.length = 2 * s.cfg.npix ∧ ∀ p < s.cfg.npix,
        (byteAt pk (2 * p)).toNat + 256 * (byteAt pk (2 * p + 1)).toNat =
          (pack565 ⟨byteAt frame (3 * p), byteAt frame (3 * p + 1), byteAt frame (3 * p + 2)⟩).toNat) ∧
      (s.cfg.format = .rgb888 → pk.length = 3 * s.cfg.npix ∧ ∀ ch ≤ 2, ∀ p < s.cfg.npix,
        byteAt pk (ch * s.cfg.npix + p) = byteAt frame (3 * p + ch)) ∧
      (s.cfg.format = .rgb888Packed → pk.length = 3 * s.cfg.npix ∧ ∀ p < s.cfg.npix, ∀ ch ≤ 2,
        byteAt pk (3 * p + ch) = byteAt frame (3 * p + ch))

/-- R154: UNPACKFRAME writes U and nothing else, pixel by pixel from the packed buffer, by the configured format. -/
def Obligations.UnpackframeWritesUByLayout : Prop :=
  ∀ (s : State) (pk : List Byte), s.life = .constructed → pk.length = s.cfg.pkSize →
    ∃ u, exec (.unpackframe pk) s = .next { s with u := u } ∧ u.length = 3 * s.cfg.npix ∧
      ∀ p < s.cfg.npix, ∀ px : Pixel, px = ⟨byteAt u (3 * p), byteAt u (3 * p + 1), byteAt u (3 * p + 2)⟩ →
        (s.cfg.format = .rgb565 → px = unpack565 (byteAt pk (2 * p + 1) ++ byteAt pk (2 * p))) ∧
        (s.cfg.format = .rgb888 →
          px = ⟨byteAt pk p, byteAt pk (s.cfg.npix + p), byteAt pk (2 * s.cfg.npix + p)⟩) ∧
        (s.cfg.format = .rgb888Packed →
          px = ⟨byteAt pk (3 * p), byteAt pk (3 * p + 1), byteAt pk (3 * p + 2)⟩)

/-- R155: packing a frame in a 24-bit format and unpacking it gives the frame back. -/
def Obligations.TwentyFourBitFramesRoundTrip : Prop :=
  ∀ (s : State) (frame : List Byte), s.life = .constructed → frame.length = 3 * s.cfg.npix →
    s.cfg.format = .rgb888 ∨ s.cfg.format = .rgb888Packed →
    ∃ pk, exec (.packframe frame) s = .next { s with pk := pk } ∧
      exec (.unpackframe pk) { s with pk := pk } = .next { s with pk := pk, u := frame }

/-! ### Bit planes (42_bitplane_encoder.md) -/

/-- R171, R173, R174: BIT, DUR and PLANEIDX for an index below B; an index of B or more is refused. -/
def Obligations.PlaneFunctions : Prop :=
  ∀ (s : State) (e8 : Byte) (i : Nat),
    (i < s.params.depth →
      exec (.bit e8 i) s = .next { s with result := .bit (e8.getLsbD (8 - s.params.depth + i)) } ∧
      exec (.dur i) s = .next { s with result := .nat (2 ^ i) } ∧
      (s.params.planeOrder = .lsbFirst → exec (.planeidx i) s = .next { s with result := .nat i }) ∧
      (s.params.planeOrder = .msbFirst →
        exec (.planeidx i) s = .next { s with result := .nat (s.params.depth - 1 - i) })) ∧
    (s.params.depth ≤ i →
      exec (.bit e8 i) s = .refused .badOperand ∧ exec (.dur i) s = .refused .badOperand ∧
        exec (.planeidx i) s = .refused .badOperand)

/-- R172, 20_memory.md R67: ENCODE writes DW and nothing else; the bit of lane `l`, channel `ch` in `DW[i][a][c]` is the
plane bit of the pixel channel that UNMAP gives. -/
def Obligations.EncodeWritesTheBitPlanes : Prop :=
  ∀ (s : State) (u : List Byte), s.life = .constructed → u.length = 3 * s.cfg.npix →
    ∃ dw, exec (.encode u) s = .next { s with dw := dw } ∧
      dw.length = s.params.depth * s.cfg.nrows * s.cfg.width ∧
      ∀ i a c, i < s.params.depth → a < s.cfg.nrows → c < s.cfg.width →
        ∃ w, dw[(i * s.cfg.nrows + a) * s.cfg.width + c]? = some w ∧ w < 2 ^ s.cfg.ndata ∧
          ∀ l ch x y, l < s.cfg.mux → ch ≤ 2 → s.cfg.unmap a l c = ⟨x, y⟩ →
            w.testBit (3 * l + ch) =
              (byteAt u (3 * (y * s.cfg.width + x) + ch)).getLsbD (8 - s.params.depth + i)

/-- R177: over the planes of a row group, a pixel channel's data bit is 1 for as many units of hold time as its
intensity's top B bits say. -/
def Obligations.BrightnessIsTheIntensity : Prop :=
  ∀ s : State, s.Inv → s.Streamed → ∀ a l c ch x y,
    a < s.cfg.nrows → l < s.cfg.mux → c < s.cfg.width → ch ≤ 2 → s.cfg.unmap a l c = ⟨x, y⟩ →
      ((List.range s.params.depth).map fun k =>
          if (s.dwWord (s.params.planeIdx k) a c).testBit (3 * l + ch) then 2 ^ s.params.planeIdx k else 0).sum =
        (byteAt s.u (3 * (y * s.cfg.width + x) + ch)).toNat / 2 ^ (8 - s.params.depth)

/-- R178: an all-zero U gives all-zero data words, an all-255 U gives data words of all ones, and through RGB565 a frame
becomes all zero exactly when no channel reaches level 1. -/
def Obligations.BlackAndWhiteFrames : Prop :=
  ∀ (c : Cfg) (p : BuildParams) (u frame : List Byte), c.Valid p → p.depth ≤ 8 →
    ((∀ v ∈ u, v = 0) → ∀ w ∈ c.encodeFrame p.depth u, w = 0) ∧
    (u.length = 3 * c.npix → (∀ v ∈ u, v = 255) → ∀ w ∈ c.encodeFrame p.depth u, w = 2 ^ c.ndata - 1) ∧
    (c.format = .rgb565 → ((∀ v ∈ c.unpackFrame (c.packFrame frame), v = 0) ↔ ∀ q < c.npix,
      (byteAt frame (3 * q)).toNat ≤ 4 ∧ (byteAt frame (3 * q + 1)).toNat ≤ 2 ∧
        (byteAt frame (3 * q + 2)).toNat ≤ 4))

/-! ### The scheduler (43_output_scheduler.md) -/

/-- R196: a line write answered ok drives the lines and is recorded as ok; answered fail it is recorded as fail and OUT is not
updated. -/
def Obligations.LineWriteFollowsTheAnswer : Prop :=
  ∀ (s : State) (sig : Sig) (dur : Nat) (rest : List Answer),
    s.fsm = .streamingFrame → sig.addr < 2 ^ s.cfg.nAddr → sig.data < 2 ^ s.cfg.ndata →
      (s.answers = .ok :: rest → exec (.lineWrite sig dur) s =
        .next { s with answers := rest, out := sig, trace := s.trace ++ [⟨s.cfg.lineWord sig, dur, .ok⟩],
                       result := .answer .ok }) ∧
      (s.answers = .fail :: rest → exec (.lineWrite sig dur) s =
        .next { s with answers := rest, trace := s.trace ++ [⟨s.cfg.lineWord sig, dur, .fail⟩],
                       result := .answer .fail })

/-- R195: past the answers that State lists, a writing operation takes the answer State names for the rest, if it names one, and
else the oracle's answer, whatever it is (the model's own inputs and free value, log 4). -/
def Obligations.AnswersPastTheListAreTheOracles : Prop :=
  ∀ (s : State) (i : Instr), s.answers = [] →
    i = .schedSelect ∨ i = .schedData ∨ i = .schedClock ∨ i = .schedLatch ∨ i = .schedHold ∨
      (∃ sig dur, i = .lineWrite sig dur) →
    (∀ a, s.answersRest = some a → exec i s = exec i { s with answers := [a] }) ∧
    (s.answersRest = none →
      exec i s = exec i { s with answers := [Config.freeAnswer s.freeAnswers], freeAnswers := s.freeAnswers + 1 })

/-- R205: SCHED.START leaves Idle when an instance has a frame waiting and no stop is requested, and otherwise nothing is
selected in Idle. -/
def Obligations.StartLeavesIdle : Prop :=
  ∀ s : State, s.fsm = .idle →
    (s.life = .constructed ∧ s.pending.valid = true ∧ s.stopreq = false →
      s.selected = some .schedStart ∧ exec .schedStart s = .next { s with fsm := .streamingFrame }) ∧
    (¬(s.life = .constructed ∧ s.pending.valid = true ∧ s.stopreq = false) → s.selected = none)

/-- R199: the cycle-start take. -/
def Obligations.TakeAtTheCycleStart : Prop :=
  ∀ s : State, s.fsm = .streamingFrame → s.row = 0 → s.k = 0 → s.phase = 0 →
    (s.pending.valid = false → exec .schedTake s = .next { s with displayed := s.displayed ++ [s.active.id] }) ∧
    (s.pending.valid = true → exec .schedTake s =
      .next { s with
        active := ⟨s.pending.id, s.pending.frame⟩
        pending := ⟨false, s.pending.id, s.pending.frame⟩
        pk := s.cfg.packFrame s.pending.frame
        u := s.cfg.unpackFrame (s.cfg.packFrame s.pending.frame)
        dw := s.cfg.encodeFrame s.params.depth (s.cfg.unpackFrame (s.cfg.packFrame s.pending.frame))
        displayed := s.displayed ++ [s.pending.id] })

/-- R197, R198: the writes of a step other than the hold, answered ok. At a cycle start SCHED.SELECT is SCHED.TAKE and then the
select write, in one micro-step (R199). -/
def Obligations.WritesFollowThePhaseTable : Prop :=
  ∀ (s : State) (rest : List Answer), s.fsm = .streamingFrame → s.answers = .ok :: rest →
    (s.phase = 0 → ¬(s.row = 0 ∧ s.k = 0) → exec .schedSelect s =
      .next { s with answers := rest, out := ⟨false, false, s.row, 0⟩, phase := 1,
                     trace := s.trace ++ [⟨s.cfg.lineWord ⟨false, false, s.row, 0⟩, s.params.tSetup, .ok⟩] }) ∧
    (∀ t, s.phase = 0 → s.row = 0 → s.k = 0 → exec .schedTake s = .next t → exec .schedSelect s =
      .next { t with answers := rest, out := ⟨false, false, 0, 0⟩, phase := 1,
                     trace := s.trace ++ [⟨s.cfg.lineWord ⟨false, false, 0, 0⟩, s.params.tSetup, .ok⟩] }) ∧
    (∀ c d, c < s.cfg.width → d = s.dwWord (s.params.planeIdx s.k) s.row c →
      (s.phase = 1 + 2 * c → exec .schedData s =
        .next { s with answers := rest, out := ⟨false, false, s.row, d⟩, phase := 2 + 2 * c,
                       trace := s.trace ++ [⟨s.cfg.lineWord ⟨false, false, s.row, d⟩, s.params.tSetup, .ok⟩] }) ∧
      (s.phase = 2 + 2 * c → exec .schedClock s =
        .next { s with answers := rest, out := ⟨true, false, s.row, d⟩, phase := 3 + 2 * c,
                       trace := s.trace ++ [⟨s.cfg.lineWord ⟨true, false, s.row, d⟩, s.params.tSetup, .ok⟩] })) ∧
    (s.phase = 2 * s.cfg.width + 1 → exec .schedLatch s =
      .next { s with answers := rest, out := ⟨false, true, s.row, 0⟩, phase := 2 * s.cfg.width + 2,
                     trace := s.trace ++ [⟨s.cfg.lineWord ⟨false, true, s.row, 0⟩, s.params.tSetup, .ok⟩] })

/-- R200: the hold write carries the plane's weight, and the scheduler goes to RowAdvance with PHASE kept. -/
def Obligations.HoldCarriesTheWeight : Prop :=
  ∀ (s : State) (rest : List Answer), s.fsm = .streamingFrame → s.phase = 2 * s.cfg.width + 2 →
    s.answers = .ok :: rest →
      exec .schedHold s =
        .next { s with answers := rest, out := ⟨false, false, s.row, 0⟩, fsm := .rowAdvance,
                       trace := s.trace ++ [⟨s.cfg.lineWord ⟨false, false, s.row, 0⟩,
                         2 ^ s.params.planeIdx s.k, .ok⟩] }

/-- R201: SCHED.ROWADV advances the row group after its last plane, writes no line, and goes to PlaneAdvance. -/
def Obligations.RowAdvanceMicroStep : Prop :=
  ∀ s : State, s.fsm = .rowAdvance →
    (s.k + 1 = s.params.depth →
      exec .schedRowadv s = .next { s with row := (s.row + 1) % 2 ^ s.cfg.nAddr, fsm := .planeAdvance }) ∧
    (s.k + 1 ≠ s.params.depth → exec .schedRowadv s = .next { s with fsm := .planeAdvance })

/-- R202: SCHED.PLANEADV advances the plane and goes on streaming; with a stop requested it takes the stop entry (R204). -/
def Obligations.PlaneAdvanceMicroStep : Prop :=
  ∀ s : State, s.fsm = .planeAdvance →
    (s.stopreq = false → exec .schedPlaneadv s =
      .next { s with k := (s.k + 1) % s.params.depth, phase := 0, fsm := .streamingFrame }) ∧
    (s.stopreq = true → exec .schedPlaneadv s =
      .next { s with out := Sig.allOff, trace := s.trace ++ [⟨0, 0, .forced⟩],
                     pending := ⟨false, s.pending.id, s.pending.frame⟩,
                     fsm := .idle, row := 0, k := 0, phase := 0 })

/-- 60_exceptions.md R256: a writing micro-step whose line write answers fail takes the DeviceError entry in the same
micro-step: the failed write is recorded, the lines are forced safe, the error is latched, the mailbox emptied, the position
cleared. At a cycle start the take has happened first (R198), so SELECT is covered there by the state after its take. -/
def Obligations.FailedWriteTakesTheErrorEntry : Prop :=
  ∀ (s : State) (i : Instr) (rest : List Answer), s.answers = .fail :: rest → s.selected = some i →
    i = .schedSelect ∨ i = .schedData ∨ i = .schedClock ∨ i = .schedLatch ∨ i = .schedHold →
    ∀ s1 : State,
      (s.atCycleStart = true → exec .schedTake s = .next s1) → (s.atCycleStart = false → s1 = s) →
      exec i s =
        .next { s1 with answers := rest, out := Sig.allOff,
                        trace := s.trace ++ [⟨s.cfg.lineWord (s1.sigAt s.phase), s1.durAt s.phase, .fail⟩, ⟨0, 0, .forced⟩],
                        err := .deviceError, errflag := true,
                        pending := ⟨false, s1.pending.id, s1.pending.frame⟩,
                        fsm := .idle, row := 0, k := 0, phase := 0 }

/-- R204, 60_exceptions.md R256, R257: STOPENTRY, TRAP.DEVERR and FORCESAFE as operations of their own, in the states in which
a micro-step performs them. -/
def Obligations.EntriesAndForcedWrite : Prop :=
  ∀ s : State,
    (s.fsm = .planeAdvance → s.stopreq = true → exec .stopentry s =
      .next { s with out := Sig.allOff, trace := s.trace ++ [⟨0, 0, .forced⟩],
                     pending := ⟨false, s.pending.id, s.pending.frame⟩, fsm := .idle, row := 0, k := 0, phase := 0 }) ∧
    (s.fsm = .streamingFrame → exec .trapDeverr s =
      .next { s with out := Sig.allOff, trace := s.trace ++ [⟨0, 0, .forced⟩], err := .deviceError, errflag := true,
                     pending := ⟨false, s.pending.id, s.pending.frame⟩, fsm := .idle, row := 0, k := 0, phase := 0 }) ∧
    (s.fsm = .streamingFrame ∨ s.fsm = .planeAdvance ∧ s.stopreq = true → exec .forcesafe s =
      .next { s with out := Sig.allOff, trace := s.trace ++ [⟨0, 0, .forced⟩] })

/-- R197, R207: from PHASE 0 of any step, `2*WIDTH + 3` micro-steps answered ok write exactly the line writes of the table,
in order, and leave the scheduler in RowAdvance at the same row and plane. -/
def Obligations.StepWritesItsTable : Prop :=
  ∀ s s1 : State, s.fsm = .streamingFrame → s.phase = 0 → s.DeviceOk (2 * s.cfg.width + 3) →
    (s.atCycleStart = true → exec .schedTake s = .next s1) → (s.atCycleStart = false → s1 = s) →
    ∃ t, microSteps (2 * s.cfg.width + 3) s = .next t ∧ t.trace = s.trace ++ s1.stepTrace ∧
      t.fsm = .rowAdvance ∧ t.row = s.row ∧ t.k = s.k ∧ t.dw = s1.dw ∧ t.displayed = s1.displayed

/-- R193, 70_reset_and_hazards.md R286: a refresh cycle without failure or stop is `NROWS * B * (2*WIDTH + 5)` micro-steps; it
makes `NROWS * B * (2*WIDTH + 3)` line writes with `NROWS * B * WIDTH` clock pulses, its durations add up to
`NROWS * ((2^B - 1) + B * (2*WIDTH + 2) * T_SETUP)` units, it begins one entry of DISPLAYED, and it ends at the next cycle
start. The step records recovered from those writes are those of the frame displayed, rows outside and planes inside
(R193, R207). -/
def Obligations.CycleTotals : Prop :=
  ∀ (s : State) (n : Nat), s.Inv → s.atCycleStart = true → s.stopreq = false →
    n = s.cfg.nrows * s.params.depth → s.DeviceOk (n * (2 * s.cfg.width + 3)) →
    ∃ t new, microSteps (n * (2 * s.cfg.width + 5)) s = .next t ∧ t.atCycleStart = true ∧
      t.trace = s.trace ++ new ∧ new.length = n * (2 * s.cfg.width + 3) ∧
      (new.filter fun e => e.lw.testBit (s.cfg.ndata + s.cfg.nAddr + 1)).length = n * s.cfg.width ∧
      (new.map TraceEntry.dur).sum =
        s.cfg.nrows * ((2 ^ s.params.depth - 1) + s.params.depth * (2 * s.cfg.width + 2) * s.params.tSetup) ∧
      t.displayed = s.displayed ++ [t.active.id] ∧
      s.cfg.recover new = (List.range s.cfg.nrows).flatMap fun a =>
        (List.range s.params.depth).map fun k => s.cfg.frameRecord s.params s.frameShown a k

/-- 44_driver_commands.md R236, R202: once a stop is requested, STOP.ack becomes enabled within one step's micro-steps,
whatever the device answers, and at most `2*WIDTH + 3` line writes and then one forced entry are made before it. So `stop()`
(R105), called on a live instance, returns, with the instance stopped and the lines low. -/
def Obligations.StopIsAcknowledgedWithinOneStep : Prop :=
  (∀ s : State, s.Inv → s.life = .constructed → s.stopreq = true →
    ∃ n t writes forced, n ≤ 2 * s.cfg.width + 5 ∧ microSteps n s = .next t ∧ t.ackEnabled = true ∧
      t.trace = s.trace ++ writes ++ forced ∧
      writes.length ≤ 2 * s.cfg.width + 3 ∧ (∀ e ∈ writes, e.status ≠ .forced) ∧
      forced.length ≤ 1 ∧ ∀ e ∈ forced, e = ⟨0, 0, .forced⟩) ∧
  ∀ s : State, s.Inv → s.life = .constructed → s.stopreq = false →
    ∃ t, stopCall s = .next t ∧ t.life = .stopped ∧ t.fsm = .idle ∧ t.out = Sig.allOff ∧ t.stopreq = false ∧
      t.errflag = false ∧ t.pending.valid = false

/-- R206, R191: while FSM is not Idle the scheduler has an enabled micro-step, it leads along the state graph, and it leads
to Idle only by the stop entry or the DeviceError entry. -/
def Obligations.SchedulerIsFreeRunning : Prop :=
  ∀ s : State, s.Inv → s.fsm ≠ .idle →
    ∃ i t, s.selected = some i ∧ microStep s = .next t ∧
      (s.fsm = .streamingFrame →
        (t.fsm = .streamingFrame ∧ t.phase = s.phase + 1) ∨
        (t.fsm = .rowAdvance ∧ s.phase = 2 * s.cfg.width + 2) ∨ (t.fsm = .idle ∧ t.errflag = true)) ∧
      (s.fsm = .rowAdvance → t.fsm = .planeAdvance) ∧
      (s.fsm = .planeAdvance →
        (s.stopreq = false → t.fsm = .streamingFrame) ∧ (s.stopreq = true → t.fsm = .idle))

/-- R208 (a), (b), (c), (e), (f): in a micro-step that ends neither in an error nor in a stop, clock and latch are never high
together, DATA changes only with the clock low, ADDR changes only in a select write, the hold has clock, latch and data low,
and under an all-zero U the data lines are 0. -/
def Obligations.LineLevelsWithinACycle : Prop :=
  ∀ s t : State, s.Inv → s.LinesFollow → s.fsm ≠ .idle → microStep s = .next t → t.fsm ≠ .idle →
    ¬(t.out.clk = true ∧ t.out.lat = true) ∧
    (t.out.data ≠ s.out.data → t.out.clk = false) ∧
    (t.out.addr ≠ s.out.addr → s.selected = some .schedSelect ∧ t.out = ⟨false, false, s.row, 0⟩) ∧
    (s.selected = some .schedHold → t.out = ⟨false, false, s.row, 0⟩) ∧
    ((∀ v ∈ t.u, v = 0) → s.selected ≠ some .schedRowadv → s.selected ≠ some .schedPlaneadv → t.out.data = 0)

/-- 20_memory.md R69, R78: no micro-step reads or writes FB: with other FB contents the scheduler does the same. -/
def Obligations.SchedulerNeverSeesTheFramebuffer : Prop :=
  ∀ (s t : State) (fb : Memory) (w h gen : Nat), microStep s = .next t →
    microStep { s with fb := fb, fbW := w, fbH := h, fbGen := gen } =
      .next { t with fb := fb, fbW := w, fbH := h, fbGen := gen }

/-- 42_bitplane_encoder.md R176, R207: two states of the invariant at the start of the same step, showing equal frames under
equal CFG and build parameters, write equal TRACE entries in that step, whatever else differs between them; and the step
record recovered from those entries is the one the frame, CFG and the build parameters give. -/
def Obligations.StepRecordsDependOnTheFrameOnly : Prop :=
  ∀ s s' : State, s.Inv → s'.Inv → s.fsm = .streamingFrame → s'.fsm = .streamingFrame → s.phase = 0 → s'.phase = 0 →
    s.row = s'.row → s.k = s'.k → s.cfg = s'.cfg → s.params = s'.params → s.frameShown = s'.frameShown →
    s.DeviceOk (2 * s.cfg.width + 3) → s'.DeviceOk (2 * s.cfg.width + 3) →
    ∃ t t' new, microSteps (2 * s.cfg.width + 3) s = .next t ∧ microSteps (2 * s.cfg.width + 3) s' = .next t' ∧
      t.trace = s.trace ++ new ∧ t'.trace = s'.trace ++ new ∧
      s.cfg.recover new = [s.cfg.frameRecord s.params s.frameShown s.row s.k]

/-- 20_memory.md R75 (b), R199: the select micro-step at a cycle start leaves the id of the frame it streams as the last one in
DISPLAYED; from then on, while the scheduler runs, every step keeps that, and either leaves DISPLAYED and ACTIVE as they are or
appends one id, which is no smaller than the last one there was. -/
def Obligations.DisplayedIdsNeverDecrease : Prop :=
  (∀ s t : State, s.atCycleStart = true → microStep s = .next t → t.Shows) ∧
  ∀ s t : State, s.Inv → s.fsm ≠ .idle → s.Streamed → s.Shows → step s = .next t →
    t.Shows ∧
      ((t.displayed = s.displayed ∧ t.active = s.active) ∨
        ∃ last id, s.displayed.getLast? = some last ∧ t.displayed = s.displayed ++ [id] ∧ last ≤ id)

/-! ### The commands (44_driver_commands.md, 60_exceptions.md) -/

/-- R232: a CONSTRUCT whose checks pass, with the host's framebuffer and within the bounds of the build if it sets any (93
U16, log 20), establishes the instance and does not touch FB. -/
def Obligations.ConstructEstablishesTheInstance : Prop :=
  ∀ (s : State) (nAddr : Nat) (orient : Orient) (mirror : Bool) (pin : PinoutArg) (cs : Nat) (f : Format)
    (pins : Pinout) (c : Cfg),
    s.life ≠ .constructed → s.stopreq = false →
    0 < s.fbW → 0 < s.fbH → 2 ^ nAddr ∣ s.fbH → (orient = .r90 ∨ orient = .r270 → s.fbW = s.fbH) →
    (∀ m, s.params.maxWidth = some m → s.fbW ≤ m) → (∀ m, s.params.maxHeight = some m → s.fbH ≤ m) →
    (∀ m, s.params.maxAddr = some m → nAddr ≤ m) →
    cs = f.code.toNat → c = ⟨s.fbW, s.fbH, nAddr, orient, mirror, f, pins⟩ →
    (pin = .table pins ∧ c.pinoutOk (c.nlines s.params) pins = true ∨
      pin = .default ∧ pins = c.defaultPinout ∧ c.nsig ≤ c.nlines s.params) →
    exec (.construct s.fbW s.fbH s.fbW s.fbH nAddr orient mirror pin cs) s =
      .next { s with cfg := c, life := .constructed, fsm := .idle, row := 0, k := 0, phase := 0, stopreq := false,
                     errflag := false, err := .ok, showcnt := 0,
                     pending := ⟨false, s.pending.id, s.pending.frame⟩, result := .code .ok }

/-- 10_state.md R29, 70_reset_and_hazards.md R283: the host allocates a framebuffer of dimensions of its own choosing while no
instance is bound to one, and a CONSTRUCT with those dimensions, with a table or the default pinout and within the bounds of a
build that sets them (93 U16, log 20), then establishes the instance over it. While an instance lives the host's turn changes
nothing. The turn, and that nobody has written the new framebuffer, are the model's choice (log 13). -/
def Obligations.ConstructOverANewFramebuffer : Prop :=
  ∀ (s : State) (w h : Nat) (ts : List Turn), s.turns = .hostAllocates w h :: ts →
    (s.life = .constructed ∨ s.stopreq = true → step s = .next { s with turns := ts }) ∧
    (s.life ≠ .constructed → s.stopreq = false →
      step s = .next { s with turns := ts, fbW := w, fbH := h, fb := [], fbGen := s.fbGen + 1 } ∧
      ∀ (t : State) (nAddr : Nat) (orient : Orient) (mirror : Bool) (pin : PinoutArg) (cs : Nat) (f : Format)
        (pins : Pinout) (c : Cfg), step s = .next t →
        0 < w → 0 < h → 2 ^ nAddr ∣ h → (orient = .r90 ∨ orient = .r270 → w = h) →
        (∀ m, s.params.maxWidth = some m → w ≤ m) → (∀ m, s.params.maxHeight = some m → h ≤ m) →
        (∀ m, s.params.maxAddr = some m → nAddr ≤ m) →
        cs = f.code.toNat → c = ⟨w, h, nAddr, orient, mirror, f, pins⟩ →
        (pin = .table pins ∧ c.pinoutOk (c.nlines s.params) pins = true ∨
          pin = .default ∧ pins = c.defaultPinout ∧ c.nsig ≤ c.nlines s.params) →
        exec (.construct w h w h nAddr orient mirror pin cs) t =
          .next { t with cfg := c, life := .constructed, fsm := .idle, row := 0, k := 0, phase := 0, stopreq := false,
                         errflag := false, err := .ok, showcnt := 0,
                         pending := ⟨false, t.pending.id, t.pending.frame⟩, result := .code .ok })

/-- 60_exceptions.md R250, R251, R253: the construction errors in their order of precedence; each is returned and writes no
state (RESULT, the returned code, is the model's own). A geometry beyond a bound that the build sets is invalid too (93 U16,
log 20). The framebuffer's dimensions disagree with the geometry when CONSTRUCT's operands say so (R232) or FB_W and FB_H do
(10_state.md R29, log 32). After the errors a table that is no pinout (93 U7, log 28) is refused. -/
def Obligations.ConstructErrorsInOrder : Prop :=
  ∀ (s : State) (fbW fbH : Nat) (width height : Int) (nAddr : Nat) (orient : Orient) (mirror : Bool)
    (pin : PinoutArg) (cs : Nat),
    s.life ≠ .constructed → s.stopreq = false →
    let good := (0 < width ∧ 0 < height ∧ ((2 ^ nAddr : Nat) : Int) ∣ height ∧
        (orient = .r90 ∨ orient = .r270 → width = height)) ∧
      (∀ m : Nat, s.params.maxWidth = some m → width ≤ m) ∧ (∀ m : Nat, s.params.maxHeight = some m → height ≤ m) ∧
      ∀ m, s.params.maxAddr = some m → nAddr ≤ m
    let go := exec (.construct fbW fbH width height nAddr orient mirror pin cs) s
    (¬good → go = .next { s with result := .code .invalidGeometry }) ∧
    (good → 3 ≤ cs → go = .next { s with result := .code .unsupportedFormat }) ∧
    (good → cs < 3 → ((fbW : Int) ≠ width ∨ (fbH : Int) ≠ height ∨ (s.fbW : Int) ≠ width ∨ (s.fbH : Int) ≠ height) →
      go = .next { s with result := .code .geometryMismatch }) ∧
    (good → cs < 3 → (fbW : Int) = width → (fbH : Int) = height → s.fbW = fbW → s.fbH = fbH →
      ∀ pins, pin = .table pins →
        ¬(pins.addr.length = nAddr ∧ pins.data.length = 3 * (fbH / 2 ^ nAddr) ∧ pins.lines.Nodup ∧
          ∀ line ∈ pins.lines, line < s.params.nlines.getD (2 + nAddr + 3 * (fbH / 2 ^ nAddr))) →
        go = .refused .badPinout)

/-- R233: a SHOW with no error latched publishes the whole of FB under the next frame id; where the build bounds SHOWCNT, the
SHOW that would pass the bound is refused (10_state.md R27, 93 U8). -/
def Obligations.ShowPublishesTheFramebuffer : Prop :=
  ∀ s : State, s.life = .constructed → s.stopreq = false → s.errflag = false →
    ((∀ m, s.params.maxShowcnt = some m → s.showcnt < m) →
      exec .showFrame s =
        .next { s with showcnt := s.showcnt + 1,
                       pending := ⟨true, s.showcnt + 1, (List.range (3 * s.cfg.npix)).map s.fbByte⟩,
                       result := .code .ok }) ∧
    ∀ m, s.params.maxShowcnt = some m → m ≤ s.showcnt → exec .showFrame s = .refused .showcntBound

/-- R233, R234, R236, R259: a latched error is returned by the first of SHOW, POLL and STOP.ack, which clears it (SHOW then
publishes nothing), and with none latched POLL returns OK. -/
def Obligations.LatchedErrorIsReported : Prop :=
  ∀ s : State, s.life = .constructed →
    (s.stopreq = false → s.errflag = true →
      exec .showFrame s = .next { s with err := .ok, errflag := false, result := .code s.err } ∧
      exec .poll s = .next { s with err := .ok, errflag := false, result := .code s.err }) ∧
    (s.stopreq = false → s.errflag = false → exec .poll s = .next { s with result := .code .ok }) ∧
    (s.stopreq = true → s.fsm = .idle → s.errflag = true → exec .stopAck s =
      .next { s with err := .ok, errflag := false, result := .code s.err, stopreq := false, life := .stopped,
                     pending := ⟨false, s.pending.id, s.pending.frame⟩ })

/-- R258, 60_exceptions.md R256: after a failing write the lines are safe and the scheduler is in Idle and waits; the next
SHOW returns DeviceError and publishes nothing, and the SHOW after that returns OK and publishes. -/
def Obligations.DeviceErrorIsReportedExactlyOnce : Prop :=
  ∀ (s t : State) (rest : List Answer), s.Inv → s.stopreq = false →
    (∀ m, s.params.maxShowcnt = some m → s.showcnt < m) → s.fsm = .streamingFrame → s.answers = .fail :: rest → microStep s = .next t →
    t.out = Sig.allOff ∧ t.fsm = .idle ∧ microStep t = .next t ∧
    ∃ t1 t2, exec .showFrame t = .next t1 ∧ t1.result = .code .deviceError ∧ t1.showcnt = t.showcnt ∧
      t1.pending.valid = false ∧ microStep t1 = .next t1 ∧
      exec .showFrame t1 = .next t2 ∧ t2.result = .code .ok ∧ t2.pending.valid = true ∧
      t2.pending.id = t.showcnt + 1

/-- R235, R236: STOP.req sets STOPREQ; STOP.ack with no error latched ends the instance and returns OK. -/
def Obligations.StopRequestAndAcknowledge : Prop :=
  ∀ s : State, s.life = .constructed →
    (s.stopreq = false → exec .stopReq s = .next { s with stopreq := true, result := .none }) ∧
    (s.stopreq = true → s.fsm = .idle → s.errflag = false → exec .stopAck s =
      .next { s with stopreq := false, life := .stopped, pending := ⟨false, s.pending.id, s.pending.frame⟩,
                     result := .code .ok })

/-- R231: FBWRITE stores one byte at `3*(y*FB_W + x) + ch` and leaves every other byte of FB and the rest of the block as
they were; FBREAD returns the byte there. -/
def Obligations.FramebufferAccess : Prop :=
  ∀ (s : State) (x y ch : Nat) (v : Byte), s.stopreq = false → x < s.fbW → y < s.fbH → ch ≤ 2 →
    (∃ fb, exec (.fbwrite x y ch v) s = .next { s with fb := fb, result := .none } ∧
      (∀ a, State.fbByte { s with fb := fb } a =
        if a = 3 * (y * s.fbW + x) + ch then v else s.fbByte a)) ∧
    exec (.fbread x y ch) s = .next { s with result := .byte (s.fbByte (3 * (y * s.fbW + x) + ch)) }

/-- R237, 30_encoding.md R103, 93 U1 to U3, U9, U10: what is not enabled is refused by name. -/
def Obligations.CommandsNotEnabledAreRefused : Prop :=
  ∀ s : State,
    (s.life ≠ .constructed ∨ s.stopreq = true →
      exec .showFrame s = .refused .notEnabled ∧ exec .poll s = .refused .notEnabled ∧
        exec .stopReq s = .refused .notEnabled) ∧
    (s.life ≠ .constructed ∨ s.stopreq = false ∨ s.fsm ≠ .idle → exec .stopAck s = .refused .notEnabled) ∧
    (∀ fbW fbH width height nAddr orient mirror pin cs, s.life = .constructed ∨ s.stopreq = true →
      exec (.construct fbW fbH width height nAddr orient mirror pin cs) s = .refused .notEnabled) ∧
    (∀ x y ch v, s.stopreq = true →
      exec (.fbwrite x y ch v) s = .refused .notEnabled ∧ exec (.fbread x y ch) s = .refused .notEnabled) ∧
    (∀ x y ch v, s.stopreq = false → s.fbW ≤ x ∨ s.fbH ≤ y ∨ 2 < ch →
      exec (.fbwrite x y ch v) s = .refused .badOperand ∧ exec (.fbread x y ch) s = .refused .badOperand) ∧
    exec .cmdReserved6 s = .refused (.reservedCommand 6) ∧ exec .cmdReserved7 s = .refused (.reservedCommand 7)

/-- 60_exceptions.md R262, 00_scope.md R8: the scheduler's micro-steps leave the host's state alone, the host's commands
leave the scheduler's state alone (CONSTRUCT zeroes the position), and nothing changes the build parameters. -/
def Obligations.EachContextWritesItsOwnState : Prop :=
  (∀ s t : State, microStep s = .next t →
    t.params = s.params ∧ t.cfg = s.cfg ∧ t.life = s.life ∧ t.showcnt = s.showcnt ∧ t.stopreq = s.stopreq ∧
      t.fb = s.fb ∧ t.fbW = s.fbW ∧ t.fbH = s.fbH ∧ t.fbGen = s.fbGen ∧ t.program = s.program ∧
      t.result = s.result ∧ (t.pending.valid = true → t.pending = s.pending)) ∧
  (∀ (s t : State) (i : Instr), (encode i).isSome ∨ i = .stopAck → exec i s = .next t →
    t.params = s.params ∧ t.out = s.out ∧ t.trace = s.trace ∧ t.displayed = s.displayed ∧ t.active = s.active ∧
      t.pk = s.pk ∧ t.u = s.u ∧ t.dw = s.dw ∧ t.answers = s.answers ∧
      ((t.fsm, t.row, t.k, t.phase) = (s.fsm, s.row, s.k, s.phase) ∨
        (s.life ≠ .constructed ∧ t.life = .constructed ∧ (t.fsm, t.row, t.k, t.phase) = (.idle, 0, 0, 0))))

/-- 44_driver_commands.md R238, R199: of two SHOWs before a take only the second frame is displayed: the mailbox holds one
frame, and the take that follows displays that id. -/
def Obligations.SecondShowReplacesTheFirst : Prop :=
  ∀ s t1 t2 : State, s.stopreq = false → s.errflag = false →
    exec .showFrame s = .next t1 → exec .showFrame t1 = .next t2 →
    t2.pending.id = s.showcnt + 2 ∧ t2.pending.frame = t1.pending.frame ∧ t2.displayed = s.displayed ∧
      ∀ t3, s.atCycleStart = true → exec .schedTake t2 = .next t3 →
        t3.displayed = s.displayed ++ [s.showcnt + 2] ∧ t3.pending.valid = false

/-- What has no meaning in a state is refused by name: an operation that reads CFG while no instance exists (10_state.md R22), an
operand that CFG gives no place to (40_geometry.md R126, 30_encoding.md R95, R96), and a micro-step, or a part of one, where the
position does not select it (30_encoding.md R102). The stops and their names are the model's choice (logs 18, 19). -/
def Obligations.OperationsOutOfPlaceAreRefused : Prop :=
  ∀ s : State,
    (s.life ≠ .constructed → ∀ x y a l c frame sig dur st lanes,
      exec (.ori x y) s = .refused .noInstance ∧ exec (.split x y) s = .refused .noInstance ∧
      exec (.map x y) s = .refused .noInstance ∧ exec (.unmap a l c) s = .refused .noInstance ∧
      exec (.packframe frame) s = .refused .noInstance ∧ exec (.unpackframe frame) s = .refused .noInstance ∧
      exec (.encode frame) s = .refused .noInstance ∧ exec (.fmtDw lanes) s = .refused .noInstance ∧
      exec (.fmtLw sig) s = .refused .noInstance ∧ exec (.fmtGpio sig) s = .refused .noInstance ∧
      exec (.enumTrace sig dur st) s = .refused .noInstance) ∧
    (s.life = .constructed →
      (∀ x y, s.cfg.width ≤ x ∨ s.cfg.height ≤ y →
        exec (.ori x y) s = .refused .badOperand ∧ exec (.split x y) s = .refused .badOperand ∧
        exec (.map x y) s = .refused .badOperand) ∧
      (∀ a l c, s.cfg.nrows ≤ a ∨ s.cfg.mux ≤ l ∨ s.cfg.width ≤ c →
        exec (.unmap a l c) s = .refused .badOperand) ∧
      (∀ buf : List Byte, buf.length ≠ 3 * s.cfg.npix →
        exec (.packframe buf) s = .refused .badOperand ∧ exec (.encode buf) s = .refused .badOperand) ∧
      (∀ buf : List Byte, buf.length ≠ s.cfg.pkSize → exec (.unpackframe buf) s = .refused .badOperand) ∧
      (∀ lanes : List LaneBits, lanes.length ≠ s.cfg.mux → exec (.fmtDw lanes) s = .refused .badOperand) ∧
      (∀ (sig : Sig) (dur : Nat) (st : Status), 2 ^ s.cfg.nAddr ≤ sig.addr ∨ 2 ^ s.cfg.ndata ≤ sig.data →
        exec (.fmtLw sig) s = .refused .badOperand ∧ exec (.fmtGpio sig) s = .refused .badOperand ∧
        exec (.enumTrace sig dur st) s = .refused .badOperand)) ∧
    (∀ i, i = .schedStart ∨ i = .schedSelect ∨ i = .schedData ∨ i = .schedClock ∨ i = .schedLatch ∨
        i = .schedHold ∨ i = .schedRowadv ∨ i = .schedPlaneadv →
      s.selected ≠ some i → exec i s = .refused .notSelected) ∧
    (s.atCycleStart = false → exec .schedTake s = .refused .notSelected) ∧
    (s.fsm ≠ .streamingFrame → ∀ sig dur,
      exec (.lineWrite sig dur) s = .refused .notSelected ∧ exec .trapDeverr s = .refused .notSelected) ∧
    (s.fsm ≠ .planeAdvance ∨ s.stopreq = false →
      exec .stopentry s = .refused .notSelected ∧
      (s.fsm ≠ .streamingFrame → exec .forcesafe s = .refused .notSelected))
end

