-- ==== Sys2Proof/Laws/Bits.lean ====
section
/-! SUPPORT. The bit functions and the buffer lookups of Operands.lean, each said once. -/

namespace Sys2Proof

/-- A bit moved to a line. -/
theorem testBit_toNat_shiftLeft (b : Bool) (p line : Nat) :
    (b.toNat <<< p).testBit line = (decide (line = p) && b) := by
  rw [Nat.testBit_shiftLeft]
  by_cases h : line = p
  · subst h
    cases b <;> simp
  · by_cases h2 : p ≤ line
    · rw [Nat.testBit_lt_two_pow (x := b.toNat)]
      · simp [h]
      · calc b.toNat ≤ 1 := Bool.toNat_le _
          _ < 2 ^ (line - p) := Nat.one_lt_two_pow (by omega)
    · simp [h, h2]

/-- The lines that `moveBits` drives high. -/
theorem testBit_moveBits (v : Nat) (pins : List Nat) (line : Nat) :
    (moveBits v pins).testBit line = true ↔ ∃ k, pins[k]? = some line ∧ v.testBit k = true := by
  induction pins generalizing v with
  | nil => simp [moveBits]
  | cons p pins ih =>
    have e : v % 2 = (v.testBit 0).toNat := by
      rw [Nat.testBit_zero]
      rcases Nat.mod_two_eq_zero_or_one v with h | h <;> simp [h]
    unfold moveBits
    rw [Nat.testBit_or, Bool.or_eq_true, ih, e, testBit_toNat_shiftLeft]
    simp only [Bool.and_eq_true, decide_eq_true_eq]
    constructor
    · rintro (⟨h1, h2⟩ | ⟨k, h1, h2⟩)
      · exact ⟨0, by simp [h1], h2⟩
      · exact ⟨k + 1, by simpa using h1, by rw [Nat.testBit_succ]; exact h2⟩
    · rintro ⟨k, h1, h2⟩
      cases k with
      | zero => exact .inl ⟨by simpa using h1.symm, h2⟩
      | succ k => exact .inr ⟨k, by simpa using h1, by rw [Nat.testBit_succ] at h2; exact h2⟩

namespace Machine

theorem orBits_lt (n : Nat) (f : Nat → Bool) : orBits n f < 2 ^ n := by
  induction n with
  | zero => simp [orBits]
  | succ n ih =>
    unfold orBits
    apply Nat.or_lt_two_pow
    · exact Nat.lt_of_lt_of_le ih (Nat.pow_le_pow_right (by omega) (by omega))
    · rw [Nat.shiftLeft_eq, Nat.pow_succ]
      cases f n <;> simp

theorem testBit_orBits (n : Nat) (f : Nat → Bool) (j : Nat) : (orBits n f).testBit j = (decide (j < n) && f j) := by
  induction n with
  | zero => simp [orBits]
  | succ n ih =>
    unfold orBits
    rw [Nat.testBit_or, ih, testBit_toNat_shiftLeft]
    by_cases h : j = n
    · subst h
      simp
    · by_cases h2 : j < n
      · simp [h, h2, show j < n + 1 by omega]
      · simp [h, h2, show ¬j < n + 1 by omega]

/-- The default pinout names the lines in the order of the logical line word. -/
theorem Cfg.defaultPinout_lines (c : Cfg) : c.defaultPinout.lines = List.range c.nsig := by
  have e : c.nsig = c.ndata + c.nAddr + 1 + 1 := by
    unfold Cfg.nsig
    omega
  rw [e, List.range_succ, List.range_succ, List.range_add]
  simp [Cfg.defaultPinout, Pinout.lines]

/-- The default pinout is a pinout wherever it fits (30_encoding.md R97). -/
theorem Cfg.defaultPinout_ok (c : Cfg) (n : Nat) (hn : c.nsig ≤ n) : c.pinoutOk n c.defaultPinout = true := by
  simp only [Cfg.pinoutOk, Cfg.defaultPinout_lines]
  simp [Cfg.defaultPinout, List.nodup_range]
  intro x hx
  omega

/-! ### Buffers made of pieces of one length -/

theorem length_flatMap_const {α β : Type} (l : List α) (f : α → List β) (n : Nat) (h : ∀ a ∈ l, (f a).length = n) :
    (l.flatMap f).length = l.length * n := by
  induction l with
  | nil => simp
  | cons a l ih =>
    simp only [List.flatMap_cons, List.length_append, List.length_cons]
    rw [ih (fun b hb => h b (List.mem_cons_of_mem _ hb)), h a List.mem_cons_self]
    ring

theorem getElem?_flatMap_const {α β : Type} (l : List α) (f : α → List β) (n : Nat) (h : ∀ a ∈ l, (f a).length = n)
    (p j : Nat) (hj : j < n) : (l.flatMap f)[n * p + j]? = l[p]?.bind fun a => (f a)[j]? := by
  induction l generalizing p with
  | nil => simp
  | cons a l ih =>
    have ha := h a List.mem_cons_self
    rw [List.flatMap_cons, List.getElem?_append]
    cases p with
    | zero =>
      rw [if_pos (by omega)]
      simp
    | succ p =>
      have : n * (p + 1) + j - n = n * p + j := by
        rw [Nat.mul_succ]
        omega
      rw [if_neg (by rw [ha]; nlinarith), ha, this, ih (fun b hb => h b (List.mem_cons_of_mem _ hb))]
      simp

theorem byteAt_flatMap_const (count n : Nat) (f : Nat → List Byte) (h : ∀ a, (f a).length = n) (p j : Nat)
    (hp : p < count) (hj : j < n) : byteAt ((List.range count).flatMap f) (n * p + j) = byteAt (f p) j := by
  unfold byteAt
  rw [List.getD_eq_getElem?_getD, getElem?_flatMap_const _ _ n (fun a _ => h a) _ _ hj]
  simp [hp, List.getD_eq_getElem?_getD]

/-- U holds the unpacked pixels in the layout of FB. -/
theorem Cfg.pixelAt_unpackFrame (c : Cfg) (pk : List Byte) (p : Nat) (hp : p < c.npix) :
    pixelAt (c.unpackFrame pk) p = c.unpackPixel pk p := by
  have h := fun j => byteAt_flatMap_const c.npix 3 (fun p => (c.unpackPixel pk p).bytes) (fun _ => rfl) p j hp
  have h0 := h 0 (by omega)
  rw [Nat.add_zero] at h0
  unfold pixelAt Cfg.unpackFrame
  rw [h0, h 1 (by omega), h 2 (by omega)]
  rfl

/-- DW holds `DW[i][a][c]` at its linear index (20_memory.md R67). -/
theorem Cfg.getElem?_encodeFrame (c : Cfg) (b : Nat) (u : List Byte) (i a x : Nat) (hi : i < b) (ha : a < c.nrows)
    (hx : x < c.width) : (c.encodeFrame b u)[c.dwIndex i a x]? = some (c.dataWord b u i a x) := by
  have e : c.dwIndex i a x = c.nrows * c.width * i + (c.width * a + x) := by
    unfold Cfg.dwIndex
    ring
  have hlt : c.width * a + x < c.nrows * c.width := by
    have : (a + 1) * c.width ≤ c.nrows * c.width := Nat.mul_le_mul_right _ ha
    rw [Nat.succ_mul, Nat.mul_comm] at this
    omega
  unfold Cfg.encodeFrame
  rw [e, getElem?_flatMap_const _ _ (c.nrows * c.width) _ _ _ hlt]
  · simp only [List.getElem?_range hi, Option.bind_some]
    rw [getElem?_flatMap_const _ _ c.width (by intros; simp) _ _ hx]
    simp [ha, hx]
  · intro i _
    rw [length_flatMap_const _ _ c.width (by intros; simp)]
    simp

end Machine

end Sys2Proof
end

