-- ==== Sys2Proof/Laws/Codec.lean ====
section
/-! SUPPORT. What each operand reader does on the bytes its writer makes, and which bytes it accepts. -/

namespace Sys2Proof

/-- A bind that succeeds is two computations that succeed. -/
theorem except_bind_ok {ε α β : Type} {x : Except ε α} {f : α → Except ε β} {b : β} (h : (x >>= f) = .ok b) :
    ∃ a, x = .ok a ∧ f a = .ok b := by
  cases x with
  | error e => cases h
  | ok a => exact ⟨a, rfl, h⟩

theorem readByte_ok {bs r : List Byte} {b : Byte} (h : readByte bs = .ok (b, r)) : bs = b :: r := by
  cases bs <;> cases h
  rfl

/-! ### Naturals -/

theorem readNat_natBytesFuel (f n : Nat) (r : List Byte) (h : n < 128 ^ (f + 1)) :
    readNat (natBytesFuel f n ++ r) = .ok (n, r) := by
  induction f generalizing n with
  | zero =>
    have : (BitVec.ofNat 8 n).toNat = n := by simp; omega
    simp only [natBytesFuel, List.singleton_append, readNat]
    rw [if_pos (by omega), this]
  | succ f ih =>
    unfold natBytesFuel
    split
    · have : (BitVec.ofNat 8 n).toNat = n := by simp; omega
      simp only [List.singleton_append, readNat]
      rw [if_pos (by omega), this]
    · have : (BitVec.ofNat 8 (128 + n % 128)).toNat = 128 + n % 128 := by simp; omega
      simp only [List.cons_append, readNat]
      rw [if_neg (by omega), this, ih (n / 128) (by rw [Nat.pow_succ] at h; omega)]
      simp only
      rw [if_neg (by omega)]
      congr 2
      omega

/-- The fuel `natBytes` starts with is enough. -/
theorem natBytes_fuel (n : Nat) : n < 128 ^ (n + 1) :=
  Nat.lt_of_lt_of_le (Nat.lt_pow_self (by omega : 1 < 128)) (Nat.pow_le_pow_right (by omega) (by omega))

theorem readNat_natBytes (n : Nat) (r : List Byte) : readNat (natBytes n ++ r) = .ok (n, r) :=
  readNat_natBytesFuel n n r (natBytes_fuel n)

theorem readNat_ok_fuel {bs r : List Byte} {n : Nat} (h : readNat bs = .ok (n, r)) (f : Nat) (hf : n < 128 ^ (f + 1)) :
    bs = natBytesFuel f n ++ r := by
  induction bs generalizing n f with
  | nil => cases h
  | cons b bs ih =>
    unfold readNat at h
    split at h
    · rename_i hb
      cases h
      have : natBytesFuel f b.toNat = [b] := by
        cases f <;> simp [natBytesFuel]
        omega
      rw [this]
      rfl
    · rename_i hb
      rcases hx : readNat bs with e | ⟨m, r'⟩
      · rw [hx] at h
        cases h
      · rw [hx] at h
        simp only at h
        split at h
        · cases h
        · rename_i hm
          cases h
          have hb2 := b.isLt
          cases f with
          | zero =>
            simp at hf
            omega
          | succ f =>
            rw [Nat.pow_succ] at hf
            have e1 : (b.toNat - 128 + 128 * m) / 128 = m := by omega
            have e2 : (b.toNat - 128 + 128 * m) % 128 = b.toNat - 128 := by omega
            have e3 : BitVec.ofNat 8 (128 + (b.toNat - 128)) = b := by
              apply BitVec.eq_of_toNat_eq
              simp
              omega
            unfold natBytesFuel
            rw [if_neg (by omega), e1, e2, e3, ih hx f (by omega)]
            rfl

/-- A natural has one spelling. -/
theorem readNat_ok {bs r : List Byte} {n : Nat} (h : readNat bs = .ok (n, r)) : bs = natBytes n ++ r :=
  readNat_ok_fuel h n (natBytes_fuel n)

/-! ### Integers and lists -/

theorem intOfNat_natOfInt (z : Int) : intOfNat (natOfInt z) = z := by
  cases z with
  | ofNat n => simp [natOfInt, intOfNat]
  | negSucc n =>
    have h : natOfInt (Int.negSucc n) = 2 * n + 1 := rfl
    rw [h]
    unfold intOfNat
    rw [if_neg (by omega)]
    omega

theorem natOfInt_intOfNat (n : Nat) : natOfInt (intOfNat n) = n := by
  unfold intOfNat
  split
  · simp only [natOfInt]
    omega
  · have : -(((n / 2 : Nat) : Int) + 1) = Int.negSucc (n / 2) := by omega
    rw [this]
    simp only [natOfInt]
    omega

theorem readInt_intBytes (z : Int) (r : List Byte) : readInt (intBytes z ++ r) = .ok (z, r) := by
  simp [readInt, intBytes, readNat_natBytes, bind, Except.bind, intOfNat_natOfInt, pure, Except.pure]

theorem readInt_ok {bs r : List Byte} {z : Int} (h : readInt bs = .ok (z, r)) : bs = intBytes z ++ r := by
  obtain ⟨⟨m, r'⟩, h1, h2⟩ := except_bind_ok h
  cases h2
  rw [intBytes, natOfInt_intOfNat]
  exact readNat_ok h1

theorem readNatList_natListBytes (xs : List Nat) (r : List Byte) :
    readNatList (natListBytes xs ++ r) = .ok (xs, r) := by
  have hs : ∀ ys : List Nat, readNats ys.length (ys.flatMap natBytes ++ r) = .ok (ys, r) := by
    intro ys
    induction ys with
    | nil => rfl
    | cons y ys ih => simp [readNats, readNat_natBytes, bind, Except.bind, pure, Except.pure, ih]
  simp [readNatList, natListBytes, readNat_natBytes, bind, Except.bind, hs]

theorem readNats_ok {n : Nat} {bs r : List Byte} {xs : List Nat} (h : readNats n bs = .ok (xs, r)) :
    xs.length = n ∧ bs = xs.flatMap natBytes ++ r := by
  induction n generalizing bs xs with
  | zero =>
    cases h
    exact ⟨rfl, rfl⟩
  | succ n ih =>
    obtain ⟨⟨x, r1⟩, h1, h⟩ := except_bind_ok h
    obtain ⟨⟨ys, r2⟩, h2, h⟩ := except_bind_ok h
    cases h
    obtain ⟨h3, h4⟩ := ih h2
    refine ⟨by simp [h3], ?_⟩
    rw [readNat_ok h1, h4]
    simp

theorem readNatList_ok {bs r : List Byte} {xs : List Nat} (h : readNatList bs = .ok (xs, r)) :
    bs = natListBytes xs ++ r := by
  obtain ⟨⟨n, r1⟩, h1, h⟩ := except_bind_ok h
  obtain ⟨h2, h3⟩ := readNats_ok h
  rw [readNat_ok h1, h3, natListBytes, h2]
  simp

/-! ### Codes -/

/-- A code reader accepts exactly the byte of its code. -/
theorem readCode_ok {α : Type} {ofCode : Nat → Option α} {code : α → Byte} {e : DecodeError} {bs r : List Byte} {x : α}
    (hc : ∀ (b : Byte) (a : α), ofCode b.toNat = some a → b = code a) (h : readCode ofCode e bs = .ok (x, r)) :
    bs = code x :: r := by
  obtain ⟨⟨b, r1⟩, h1, h⟩ := except_bind_ok h
  rw [readByte_ok h1]
  simp only at h
  split at h
  · rename_i a ha
    cases h
    rw [hc _ _ ha]
  · cases h

theorem boolOfCode_some (b : Byte) (a : Bool) (h : boolOfCode b.toNat = some a) : b = boolByte a := by
  unfold boolOfCode at h
  split at h <;> cases h <;> rename_i hb <;> apply BitVec.eq_of_toNat_eq <;> exact hb

theorem Orient.ofCode_some (b : Byte) (a : Orient) (h : Orient.ofCode b.toNat = some a) :
    b = a.code.setWidth 8 := by
  unfold Orient.ofCode at h
  split at h <;> cases h <;> rename_i hb <;> apply BitVec.eq_of_toNat_eq <;> exact hb

theorem ErrCode.ofCode_some (b : Byte) (a : ErrCode) (h : ErrCode.ofCode b.toNat = some a) :
    b = a.code.setWidth 8 := by
  unfold ErrCode.ofCode at h
  split at h <;> cases h <;> rename_i hb <;> apply BitVec.eq_of_toNat_eq <;> exact hb

theorem Fsm.ofCode_some (b : Byte) (a : Fsm) (h : Fsm.ofCode b.toNat = some a) : b = a.code.setWidth 8 := by
  unfold Fsm.ofCode at h
  split at h <;> cases h <;> rename_i hb <;> apply BitVec.eq_of_toNat_eq <;> exact hb

theorem readCode_orient (o : Orient) (r : List Byte) :
    readCode Orient.ofCode .badSelector (o.code.setWidth 8 :: r) = .ok (o, r) := by
  cases o <;> rfl

theorem readCode_bool (b : Bool) (r : List Byte) :
    readCode boolOfCode .badSelector (boolByte b :: r) = .ok (b, r) := by
  cases b <;> rfl

/-! ### Pinouts -/

theorem readPinout_pinoutBytes (p : PinoutArg) (r : List Byte) : readPinout (pinoutBytes p ++ r) = .ok (p, r) := by
  cases p with
  | default => rfl
  | table p =>
    simp [readPinout, pinoutBytes, readCode, readByte, boolOfCode, readNat_natBytes, readNatList_natListBytes, bind,
      Except.bind, pure, Except.pure]

theorem readPinout_ok {bs r : List Byte} {p : PinoutArg} (h : readPinout bs = .ok (p, r)) :
    bs = pinoutBytes p ++ r := by
  obtain ⟨⟨b, r1⟩, h1, h⟩ := except_bind_ok h
  rw [readCode_ok boolOfCode_some h1]
  simp only at h
  split at h
  · rename_i hb
    subst hb
    obtain ⟨⟨_, _⟩, h1, h⟩ := except_bind_ok h
    obtain ⟨⟨_, _⟩, h2, h⟩ := except_bind_ok h
    obtain ⟨⟨_, _⟩, h3, h⟩ := except_bind_ok h
    obtain ⟨⟨_, _⟩, h4, h⟩ := except_bind_ok h
    cases h
    have h1 := readNat_ok h1
    have h2 := readNat_ok h2
    have h3 := readNatList_ok h3
    have h4 := readNatList_ok h4
    dsimp only at h2 h3 h4
    rw [h1, h2, h3, h4]
    simp [pinoutBytes, boolByte]
  · rename_i hb
    cases h
    have : b = false := by simpa using hb
    subst this
    rfl

/-! ### What the decoder can answer -/

/-- Only an instruction that has a word of its own is decoded. -/
theorem decode_coded {sp : Space} {bs r : List Byte} {i : Instr} (h : decode sp bs = .ok (i, r)) :
    (encode i).isSome := by
  cases sp
  case command =>
    obtain ⟨⟨b, bs'⟩, -, h⟩ := except_bind_ok h
    simp only at h
    split at h
    · unfold readConstruct at h
      repeat (obtain ⟨⟨_, _⟩, -, h⟩ := except_bind_ok h; try simp only at h)
      cases h
      rfl
    · cases h
      rfl
    · cases h
      rfl
    · cases h
      rfl
    · unfold readFbwrite at h
      repeat (obtain ⟨⟨_, _⟩, -, h⟩ := except_bind_ok h; try simp only at h)
      cases h
      rfl
    · unfold readFbread at h
      repeat (obtain ⟨⟨_, _⟩, -, h⟩ := except_bind_ok h; try simp only at h)
      cases h
      rfl
    · cases h
      rfl
    · cases h
      rfl
    · cases h
  all_goals
    repeat (obtain ⟨⟨_, _⟩, -, h⟩ := except_bind_ok h; try simp only at h)
    cases h
    rfl

/-! ### Bytes after a word -/

/-- What a reader answers on some bytes it answers with more bytes after them too, unless it ran out of them. -/
def PrefixStable {α} (R : List Byte → Except DecodeError (α × List Byte)) : Prop :=
  ∀ bs rest, (∀ a r, R bs = .ok (a, r) → R (bs ++ rest) = .ok (a, r ++ rest)) ∧
    (∀ e, R bs = .error e → e ≠ .truncated → R (bs ++ rest) = .error e)

theorem PrefixStable.pure {α} (a : α) : PrefixStable fun bs => .ok (a, bs) := by
  intro bs rest; constructor
  · intro a' r h; cases h; rfl
  · intro e h; cases h

theorem PrefixStable.error {α} (e) : PrefixStable (α := α) fun _ => .error e := by
  intro bs rest; constructor
  · intro a' r h; cases h
  · intro e h _; exact h

theorem PrefixStable.bind {α β} {R : List Byte → Except DecodeError (α × List Byte)}
    {S : α → List Byte → Except DecodeError (β × List Byte)} (hR : PrefixStable R) (hS : ∀ a, PrefixStable (S a)) :
    PrefixStable fun bs => (R bs >>= fun p => S p.1 p.2) := by
  intro bs rest
  rcases hx : R bs with e | ⟨a, r⟩
  · constructor
    · intro a r h; simp [hx, Bind.bind, Except.bind] at h
    · intro e' h hne
      simp only [hx, Bind.bind, Except.bind] at h; cases h
      simp [(hR bs rest).2 e hx hne, Bind.bind, Except.bind]
  · constructor
    · intro b r' h
      simp only [hx, Bind.bind, Except.bind] at h
      simp only [(hR bs rest).1 a r hx, Bind.bind, Except.bind]
      exact (hS a r rest).1 b r' h
    · intro e h hne
      simp only [hx, Bind.bind, Except.bind] at h
      simp only [(hR bs rest).1 a r hx, Bind.bind, Except.bind]
      exact (hS a r rest).2 e h hne

theorem readByte_prefixStable : PrefixStable readByte := by
  intro bs rest
  cases bs with
  | nil => exact ⟨fun a r h => (by cases h), fun e h hne => by cases h; exact absurd rfl hne⟩
  | cons b bs => exact ⟨fun a r h => by cases h; rfl, fun e h => by cases h⟩

theorem readNat_prefixStable : PrefixStable readNat := by
  intro bs rest
  induction bs with
  | nil =>
    refine ⟨fun a r h => ?_, fun e h hne => ?_⟩
    · cases h
    · cases h; exact absurd rfl hne
  | cons b bs ih =>
    simp only [List.cons_append, readNat]
    split
    · refine ⟨fun a r h => ?_, fun e h => ?_⟩
      · cases h; rfl
      · cases h
    · rcases hx : readNat bs with e | ⟨n, r⟩
      · refine ⟨fun a r h => ?_, fun e' h hne => ?_⟩
        · cases h
        cases h
        rw [ih.2 e hx hne]
      · rw [ih.1 n r hx]
        dsimp only
        split
        · exact ⟨fun a r h => (nomatch h), fun e h _ => h⟩
        · refine ⟨fun a r h => ?_, fun e h => ?_⟩
          · cases h; rfl
          · cases h

theorem readInt_prefixStable : PrefixStable readInt := readNat_prefixStable.bind fun _ => PrefixStable.pure _

theorem readNats_prefixStable : ∀ n, PrefixStable (readNats n)
  | 0 => PrefixStable.pure _
  | n + 1 => readNat_prefixStable.bind fun _ => (readNats_prefixStable n).bind fun _ => PrefixStable.pure _

theorem readNatList_prefixStable : PrefixStable readNatList := readNat_prefixStable.bind readNats_prefixStable

theorem readCode_prefixStable {α} (f : Nat → Option α) (e) : PrefixStable (readCode f e) := by
  refine PrefixStable.bind
    (S := fun b bs => match f b.toNat with | some a => .ok (a, bs) | none => .error e) readByte_prefixStable fun b => ?_
  cases f b.toNat with
  | none => exact PrefixStable.error e
  | some a => exact PrefixStable.pure a

theorem readPinout_prefixStable : PrefixStable readPinout := by
  refine PrefixStable.bind
    (S := fun b bs =>
      if b = true then
        readNat bs >>= fun p => readNat p.2 >>= fun q => readNatList q.2 >>= fun r => readNatList r.2 >>= fun t =>
          .ok (PinoutArg.table ⟨p.1, q.1, r.1, t.1⟩, t.2)
      else .ok (PinoutArg.default, bs))
    (readCode_prefixStable boolOfCode .badSelector) fun b => ?_
  cases b
  · exact PrefixStable.pure _
  · exact readNat_prefixStable.bind fun a => readNat_prefixStable.bind fun b => readNatList_prefixStable.bind fun c =>
      readNatList_prefixStable.bind fun d => PrefixStable.pure (PinoutArg.table ⟨a, b, c, d⟩)

theorem readConstruct_prefixStable : PrefixStable readConstruct :=
  readNat_prefixStable.bind fun _ => readNat_prefixStable.bind fun _ => readInt_prefixStable.bind fun _ =>
    readInt_prefixStable.bind fun _ => readNat_prefixStable.bind fun _ => (readCode_prefixStable _ _).bind fun _ =>
    (readCode_prefixStable _ _).bind fun _ => readPinout_prefixStable.bind fun _ => readNat_prefixStable.bind fun _ =>
      PrefixStable.pure _

theorem decodeCommand_prefixStable : PrefixStable decodeCommand := by
  refine PrefixStable.bind (S := fun b bs => match b.toNat with
    | 0 => readConstruct bs
    | 1 => .ok (.showFrame, bs)
    | 2 => .ok (.stopReq, bs)
    | 3 => .ok (.poll, bs)
    | 4 => readFbwrite bs
    | 5 => readFbread bs
    | 6 => .ok (.cmdReserved6, bs)
    | 7 => .ok (.cmdReserved7, bs)
    | _ => .error .highBits) readByte_prefixStable fun b => ?_
  split
  · exact readConstruct_prefixStable
  · exact PrefixStable.pure _
  · exact PrefixStable.pure _
  · exact PrefixStable.pure _
  · exact readNat_prefixStable.bind fun _ => readNat_prefixStable.bind fun _ => readNat_prefixStable.bind fun _ =>
      readByte_prefixStable.bind fun _ => PrefixStable.pure _
  · exact readNat_prefixStable.bind fun _ => readNat_prefixStable.bind fun _ => readNat_prefixStable.bind fun _ =>
      PrefixStable.pure _
  · exact PrefixStable.pure _
  · exact PrefixStable.pure _
  · exact PrefixStable.error _

theorem decode_prefixStable (sp) : PrefixStable (decode sp) := by
  cases sp
  · exact decodeCommand_prefixStable
  · exact readByte_prefixStable.bind fun _ => readByte_prefixStable.bind fun _ => readByte_prefixStable.bind fun _ =>
      PrefixStable.pure _
  · exact readByte_prefixStable.bind fun lo => readByte_prefixStable.bind fun hi =>
      PrefixStable.pure (decodeRgb565 (le16 lo hi))
  · exact readByte_prefixStable.bind fun _ => PrefixStable.pure _
  · exact readByte_prefixStable.bind fun _ => readByte_prefixStable.bind fun _ => readByte_prefixStable.bind fun _ =>
      PrefixStable.pure _
  · exact (readCode_prefixStable _ _).bind fun _ => PrefixStable.pure _
  · exact (readCode_prefixStable _ _).bind fun _ => PrefixStable.pure _

end Sys2Proof
end

