-- ==== Sys2Proof/Laws/State.lean ====
section
/-! SUPPORT. What each primitive update of State leaves in each field: one lemma per field per update, true by rfl, so that
no proof unfolds an update. -/

namespace Sys2Proof.Machine

variable (s : State)

/-! ### answer -/

@[simp] theorem State.answer_params (r : Result) : (s.answer r).params = s.params := rfl
@[simp] theorem State.answer_cfg (r : Result) : (s.answer r).cfg = s.cfg := rfl
@[simp] theorem State.answer_life (r : Result) : (s.answer r).life = s.life := rfl
@[simp] theorem State.answer_fsm (r : Result) : (s.answer r).fsm = s.fsm := rfl
@[simp] theorem State.answer_row (r : Result) : (s.answer r).row = s.row := rfl
@[simp] theorem State.answer_k (r : Result) : (s.answer r).k = s.k := rfl
@[simp] theorem State.answer_phase (r : Result) : (s.answer r).phase = s.phase := rfl
@[simp] theorem State.answer_stopreq (r : Result) : (s.answer r).stopreq = s.stopreq := rfl
@[simp] theorem State.answer_errflag (r : Result) : (s.answer r).errflag = s.errflag := rfl
@[simp] theorem State.answer_err (r : Result) : (s.answer r).err = s.err := rfl
@[simp] theorem State.answer_showcnt (r : Result) : (s.answer r).showcnt = s.showcnt := rfl
@[simp] theorem State.answer_out (r : Result) : (s.answer r).out = s.out := rfl
@[simp] theorem State.answer_fbW (r : Result) : (s.answer r).fbW = s.fbW := rfl
@[simp] theorem State.answer_fbH (r : Result) : (s.answer r).fbH = s.fbH := rfl
@[simp] theorem State.answer_fb (r : Result) : (s.answer r).fb = s.fb := rfl
@[simp] theorem State.answer_pending (r : Result) : (s.answer r).pending = s.pending := rfl
@[simp] theorem State.answer_active (r : Result) : (s.answer r).active = s.active := rfl
@[simp] theorem State.answer_pk (r : Result) : (s.answer r).pk = s.pk := rfl
@[simp] theorem State.answer_u (r : Result) : (s.answer r).u = s.u := rfl
@[simp] theorem State.answer_dw (r : Result) : (s.answer r).dw = s.dw := rfl
@[simp] theorem State.answer_trace (r : Result) : (s.answer r).trace = s.trace := rfl
@[simp] theorem State.answer_displayed (r : Result) : (s.answer r).displayed = s.displayed := rfl
@[simp] theorem State.answer_program (r : Result) : (s.answer r).program = s.program := rfl
@[simp] theorem State.answer_turns (r : Result) : (s.answer r).turns = s.turns := rfl
@[simp] theorem State.answer_answers (r : Result) : (s.answer r).answers = s.answers := rfl
@[simp] theorem State.answer_answersRest (r : Result) : (s.answer r).answersRest = s.answersRest := rfl
@[simp] theorem State.answer_freeTurns (r : Result) : (s.answer r).freeTurns = s.freeTurns := rfl
@[simp] theorem State.answer_freeAnswers (r : Result) : (s.answer r).freeAnswers = s.freeAnswers := rfl
@[simp] theorem State.answer_fbGen (r : Result) : (s.answer r).fbGen = s.fbGen := rfl
@[simp] theorem State.answer_result (r : Result) : (s.answer r).result = r := rfl

/-! ### requestStop -/

@[simp] theorem State.requestStop_params : (s.requestStop).params = s.params := rfl
@[simp] theorem State.requestStop_cfg : (s.requestStop).cfg = s.cfg := rfl
@[simp] theorem State.requestStop_life : (s.requestStop).life = s.life := rfl
@[simp] theorem State.requestStop_fsm : (s.requestStop).fsm = s.fsm := rfl
@[simp] theorem State.requestStop_row : (s.requestStop).row = s.row := rfl
@[simp] theorem State.requestStop_k : (s.requestStop).k = s.k := rfl
@[simp] theorem State.requestStop_phase : (s.requestStop).phase = s.phase := rfl
@[simp] theorem State.requestStop_stopreq : (s.requestStop).stopreq = true := rfl
@[simp] theorem State.requestStop_errflag : (s.requestStop).errflag = s.errflag := rfl
@[simp] theorem State.requestStop_err : (s.requestStop).err = s.err := rfl
@[simp] theorem State.requestStop_showcnt : (s.requestStop).showcnt = s.showcnt := rfl
@[simp] theorem State.requestStop_out : (s.requestStop).out = s.out := rfl
@[simp] theorem State.requestStop_fbW : (s.requestStop).fbW = s.fbW := rfl
@[simp] theorem State.requestStop_fbH : (s.requestStop).fbH = s.fbH := rfl
@[simp] theorem State.requestStop_fb : (s.requestStop).fb = s.fb := rfl
@[simp] theorem State.requestStop_pending : (s.requestStop).pending = s.pending := rfl
@[simp] theorem State.requestStop_active : (s.requestStop).active = s.active := rfl
@[simp] theorem State.requestStop_pk : (s.requestStop).pk = s.pk := rfl
@[simp] theorem State.requestStop_u : (s.requestStop).u = s.u := rfl
@[simp] theorem State.requestStop_dw : (s.requestStop).dw = s.dw := rfl
@[simp] theorem State.requestStop_trace : (s.requestStop).trace = s.trace := rfl
@[simp] theorem State.requestStop_displayed : (s.requestStop).displayed = s.displayed := rfl
@[simp] theorem State.requestStop_program : (s.requestStop).program = s.program := rfl
@[simp] theorem State.requestStop_turns : (s.requestStop).turns = s.turns := rfl
@[simp] theorem State.requestStop_answers : (s.requestStop).answers = s.answers := rfl
@[simp] theorem State.requestStop_answersRest : (s.requestStop).answersRest = s.answersRest := rfl
@[simp] theorem State.requestStop_freeTurns : (s.requestStop).freeTurns = s.freeTurns := rfl
@[simp] theorem State.requestStop_freeAnswers : (s.requestStop).freeAnswers = s.freeAnswers := rfl
@[simp] theorem State.requestStop_fbGen : (s.requestStop).fbGen = s.fbGen := rfl
@[simp] theorem State.requestStop_result : (s.requestStop).result = s.result := rfl

/-! ### clearStop -/

@[simp] theorem State.clearStop_params : (s.clearStop).params = s.params := rfl
@[simp] theorem State.clearStop_cfg : (s.clearStop).cfg = s.cfg := rfl
@[simp] theorem State.clearStop_life : (s.clearStop).life = s.life := rfl
@[simp] theorem State.clearStop_fsm : (s.clearStop).fsm = s.fsm := rfl
@[simp] theorem State.clearStop_row : (s.clearStop).row = s.row := rfl
@[simp] theorem State.clearStop_k : (s.clearStop).k = s.k := rfl
@[simp] theorem State.clearStop_phase : (s.clearStop).phase = s.phase := rfl
@[simp] theorem State.clearStop_stopreq : (s.clearStop).stopreq = false := rfl
@[simp] theorem State.clearStop_errflag : (s.clearStop).errflag = s.errflag := rfl
@[simp] theorem State.clearStop_err : (s.clearStop).err = s.err := rfl
@[simp] theorem State.clearStop_showcnt : (s.clearStop).showcnt = s.showcnt := rfl
@[simp] theorem State.clearStop_out : (s.clearStop).out = s.out := rfl
@[simp] theorem State.clearStop_fbW : (s.clearStop).fbW = s.fbW := rfl
@[simp] theorem State.clearStop_fbH : (s.clearStop).fbH = s.fbH := rfl
@[simp] theorem State.clearStop_fb : (s.clearStop).fb = s.fb := rfl
@[simp] theorem State.clearStop_pending : (s.clearStop).pending = s.pending := rfl
@[simp] theorem State.clearStop_active : (s.clearStop).active = s.active := rfl
@[simp] theorem State.clearStop_pk : (s.clearStop).pk = s.pk := rfl
@[simp] theorem State.clearStop_u : (s.clearStop).u = s.u := rfl
@[simp] theorem State.clearStop_dw : (s.clearStop).dw = s.dw := rfl
@[simp] theorem State.clearStop_trace : (s.clearStop).trace = s.trace := rfl
@[simp] theorem State.clearStop_displayed : (s.clearStop).displayed = s.displayed := rfl
@[simp] theorem State.clearStop_program : (s.clearStop).program = s.program := rfl
@[simp] theorem State.clearStop_turns : (s.clearStop).turns = s.turns := rfl
@[simp] theorem State.clearStop_answers : (s.clearStop).answers = s.answers := rfl
@[simp] theorem State.clearStop_answersRest : (s.clearStop).answersRest = s.answersRest := rfl
@[simp] theorem State.clearStop_freeTurns : (s.clearStop).freeTurns = s.freeTurns := rfl
@[simp] theorem State.clearStop_freeAnswers : (s.clearStop).freeAnswers = s.freeAnswers := rfl
@[simp] theorem State.clearStop_fbGen : (s.clearStop).fbGen = s.fbGen := rfl
@[simp] theorem State.clearStop_result : (s.clearStop).result = s.result := rfl

/-! ### latchError -/

@[simp] theorem State.latchError_params : (s.latchError).params = s.params := rfl
@[simp] theorem State.latchError_cfg : (s.latchError).cfg = s.cfg := rfl
@[simp] theorem State.latchError_life : (s.latchError).life = s.life := rfl
@[simp] theorem State.latchError_fsm : (s.latchError).fsm = s.fsm := rfl
@[simp] theorem State.latchError_row : (s.latchError).row = s.row := rfl
@[simp] theorem State.latchError_k : (s.latchError).k = s.k := rfl
@[simp] theorem State.latchError_phase : (s.latchError).phase = s.phase := rfl
@[simp] theorem State.latchError_stopreq : (s.latchError).stopreq = s.stopreq := rfl
@[simp] theorem State.latchError_errflag : (s.latchError).errflag = true := rfl
@[simp] theorem State.latchError_err : (s.latchError).err = .deviceError := rfl
@[simp] theorem State.latchError_showcnt : (s.latchError).showcnt = s.showcnt := rfl
@[simp] theorem State.latchError_out : (s.latchError).out = s.out := rfl
@[simp] theorem State.latchError_fbW : (s.latchError).fbW = s.fbW := rfl
@[simp] theorem State.latchError_fbH : (s.latchError).fbH = s.fbH := rfl
@[simp] theorem State.latchError_fb : (s.latchError).fb = s.fb := rfl
@[simp] theorem State.latchError_pending : (s.latchError).pending = s.pending := rfl
@[simp] theorem State.latchError_active : (s.latchError).active = s.active := rfl
@[simp] theorem State.latchError_pk : (s.latchError).pk = s.pk := rfl
@[simp] theorem State.latchError_u : (s.latchError).u = s.u := rfl
@[simp] theorem State.latchError_dw : (s.latchError).dw = s.dw := rfl
@[simp] theorem State.latchError_trace : (s.latchError).trace = s.trace := rfl
@[simp] theorem State.latchError_displayed : (s.latchError).displayed = s.displayed := rfl
@[simp] theorem State.latchError_program : (s.latchError).program = s.program := rfl
@[simp] theorem State.latchError_turns : (s.latchError).turns = s.turns := rfl
@[simp] theorem State.latchError_answers : (s.latchError).answers = s.answers := rfl
@[simp] theorem State.latchError_answersRest : (s.latchError).answersRest = s.answersRest := rfl
@[simp] theorem State.latchError_freeTurns : (s.latchError).freeTurns = s.freeTurns := rfl
@[simp] theorem State.latchError_freeAnswers : (s.latchError).freeAnswers = s.freeAnswers := rfl
@[simp] theorem State.latchError_fbGen : (s.latchError).fbGen = s.fbGen := rfl
@[simp] theorem State.latchError_result : (s.latchError).result = s.result := rfl

/-! ### clearError -/

@[simp] theorem State.clearError_params : (s.clearError).params = s.params := rfl
@[simp] theorem State.clearError_cfg : (s.clearError).cfg = s.cfg := rfl
@[simp] theorem State.clearError_life : (s.clearError).life = s.life := rfl
@[simp] theorem State.clearError_fsm : (s.clearError).fsm = s.fsm := rfl
@[simp] theorem State.clearError_row : (s.clearError).row = s.row := rfl
@[simp] theorem State.clearError_k : (s.clearError).k = s.k := rfl
@[simp] theorem State.clearError_phase : (s.clearError).phase = s.phase := rfl
@[simp] theorem State.clearError_stopreq : (s.clearError).stopreq = s.stopreq := rfl
@[simp] theorem State.clearError_errflag : (s.clearError).errflag = false := rfl
@[simp] theorem State.clearError_err : (s.clearError).err = .ok := rfl
@[simp] theorem State.clearError_showcnt : (s.clearError).showcnt = s.showcnt := rfl
@[simp] theorem State.clearError_out : (s.clearError).out = s.out := rfl
@[simp] theorem State.clearError_fbW : (s.clearError).fbW = s.fbW := rfl
@[simp] theorem State.clearError_fbH : (s.clearError).fbH = s.fbH := rfl
@[simp] theorem State.clearError_fb : (s.clearError).fb = s.fb := rfl
@[simp] theorem State.clearError_pending : (s.clearError).pending = s.pending := rfl
@[simp] theorem State.clearError_active : (s.clearError).active = s.active := rfl
@[simp] theorem State.clearError_pk : (s.clearError).pk = s.pk := rfl
@[simp] theorem State.clearError_u : (s.clearError).u = s.u := rfl
@[simp] theorem State.clearError_dw : (s.clearError).dw = s.dw := rfl
@[simp] theorem State.clearError_trace : (s.clearError).trace = s.trace := rfl
@[simp] theorem State.clearError_displayed : (s.clearError).displayed = s.displayed := rfl
@[simp] theorem State.clearError_program : (s.clearError).program = s.program := rfl
@[simp] theorem State.clearError_turns : (s.clearError).turns = s.turns := rfl
@[simp] theorem State.clearError_answers : (s.clearError).answers = s.answers := rfl
@[simp] theorem State.clearError_answersRest : (s.clearError).answersRest = s.answersRest := rfl
@[simp] theorem State.clearError_freeTurns : (s.clearError).freeTurns = s.freeTurns := rfl
@[simp] theorem State.clearError_freeAnswers : (s.clearError).freeAnswers = s.freeAnswers := rfl
@[simp] theorem State.clearError_fbGen : (s.clearError).fbGen = s.fbGen := rfl
@[simp] theorem State.clearError_result : (s.clearError).result = s.result := rfl

/-! ### dropPending -/

@[simp] theorem State.dropPending_params : (s.dropPending).params = s.params := rfl
@[simp] theorem State.dropPending_cfg : (s.dropPending).cfg = s.cfg := rfl
@[simp] theorem State.dropPending_life : (s.dropPending).life = s.life := rfl
@[simp] theorem State.dropPending_fsm : (s.dropPending).fsm = s.fsm := rfl
@[simp] theorem State.dropPending_row : (s.dropPending).row = s.row := rfl
@[simp] theorem State.dropPending_k : (s.dropPending).k = s.k := rfl
@[simp] theorem State.dropPending_phase : (s.dropPending).phase = s.phase := rfl
@[simp] theorem State.dropPending_stopreq : (s.dropPending).stopreq = s.stopreq := rfl
@[simp] theorem State.dropPending_errflag : (s.dropPending).errflag = s.errflag := rfl
@[simp] theorem State.dropPending_err : (s.dropPending).err = s.err := rfl
@[simp] theorem State.dropPending_showcnt : (s.dropPending).showcnt = s.showcnt := rfl
@[simp] theorem State.dropPending_out : (s.dropPending).out = s.out := rfl
@[simp] theorem State.dropPending_fbW : (s.dropPending).fbW = s.fbW := rfl
@[simp] theorem State.dropPending_fbH : (s.dropPending).fbH = s.fbH := rfl
@[simp] theorem State.dropPending_fb : (s.dropPending).fb = s.fb := rfl
@[simp] theorem State.dropPending_pending : (s.dropPending).pending = { s.pending with valid := false } := rfl
@[simp] theorem State.dropPending_active : (s.dropPending).active = s.active := rfl
@[simp] theorem State.dropPending_pk : (s.dropPending).pk = s.pk := rfl
@[simp] theorem State.dropPending_u : (s.dropPending).u = s.u := rfl
@[simp] theorem State.dropPending_dw : (s.dropPending).dw = s.dw := rfl
@[simp] theorem State.dropPending_trace : (s.dropPending).trace = s.trace := rfl
@[simp] theorem State.dropPending_displayed : (s.dropPending).displayed = s.displayed := rfl
@[simp] theorem State.dropPending_program : (s.dropPending).program = s.program := rfl
@[simp] theorem State.dropPending_turns : (s.dropPending).turns = s.turns := rfl
@[simp] theorem State.dropPending_answers : (s.dropPending).answers = s.answers := rfl
@[simp] theorem State.dropPending_answersRest : (s.dropPending).answersRest = s.answersRest := rfl
@[simp] theorem State.dropPending_freeTurns : (s.dropPending).freeTurns = s.freeTurns := rfl
@[simp] theorem State.dropPending_freeAnswers : (s.dropPending).freeAnswers = s.freeAnswers := rfl
@[simp] theorem State.dropPending_fbGen : (s.dropPending).fbGen = s.fbGen := rfl
@[simp] theorem State.dropPending_result : (s.dropPending).result = s.result := rfl

/-! ### toIdle -/

@[simp] theorem State.toIdle_params : (s.toIdle).params = s.params := rfl
@[simp] theorem State.toIdle_cfg : (s.toIdle).cfg = s.cfg := rfl
@[simp] theorem State.toIdle_life : (s.toIdle).life = s.life := rfl
@[simp] theorem State.toIdle_fsm : (s.toIdle).fsm = .idle := rfl
@[simp] theorem State.toIdle_row : (s.toIdle).row = 0 := rfl
@[simp] theorem State.toIdle_k : (s.toIdle).k = 0 := rfl
@[simp] theorem State.toIdle_phase : (s.toIdle).phase = 0 := rfl
@[simp] theorem State.toIdle_stopreq : (s.toIdle).stopreq = s.stopreq := rfl
@[simp] theorem State.toIdle_errflag : (s.toIdle).errflag = s.errflag := rfl
@[simp] theorem State.toIdle_err : (s.toIdle).err = s.err := rfl
@[simp] theorem State.toIdle_showcnt : (s.toIdle).showcnt = s.showcnt := rfl
@[simp] theorem State.toIdle_out : (s.toIdle).out = s.out := rfl
@[simp] theorem State.toIdle_fbW : (s.toIdle).fbW = s.fbW := rfl
@[simp] theorem State.toIdle_fbH : (s.toIdle).fbH = s.fbH := rfl
@[simp] theorem State.toIdle_fb : (s.toIdle).fb = s.fb := rfl
@[simp] theorem State.toIdle_pending : (s.toIdle).pending = s.pending := rfl
@[simp] theorem State.toIdle_active : (s.toIdle).active = s.active := rfl
@[simp] theorem State.toIdle_pk : (s.toIdle).pk = s.pk := rfl
@[simp] theorem State.toIdle_u : (s.toIdle).u = s.u := rfl
@[simp] theorem State.toIdle_dw : (s.toIdle).dw = s.dw := rfl
@[simp] theorem State.toIdle_trace : (s.toIdle).trace = s.trace := rfl
@[simp] theorem State.toIdle_displayed : (s.toIdle).displayed = s.displayed := rfl
@[simp] theorem State.toIdle_program : (s.toIdle).program = s.program := rfl
@[simp] theorem State.toIdle_turns : (s.toIdle).turns = s.turns := rfl
@[simp] theorem State.toIdle_answers : (s.toIdle).answers = s.answers := rfl
@[simp] theorem State.toIdle_answersRest : (s.toIdle).answersRest = s.answersRest := rfl
@[simp] theorem State.toIdle_freeTurns : (s.toIdle).freeTurns = s.freeTurns := rfl
@[simp] theorem State.toIdle_freeAnswers : (s.toIdle).freeAnswers = s.freeAnswers := rfl
@[simp] theorem State.toIdle_fbGen : (s.toIdle).fbGen = s.fbGen := rfl
@[simp] theorem State.toIdle_result : (s.toIdle).result = s.result := rfl

/-! ### drive -/

@[simp] theorem State.drive_params (sig : Sig) : (s.drive sig).params = s.params := rfl
@[simp] theorem State.drive_cfg (sig : Sig) : (s.drive sig).cfg = s.cfg := rfl
@[simp] theorem State.drive_life (sig : Sig) : (s.drive sig).life = s.life := rfl
@[simp] theorem State.drive_fsm (sig : Sig) : (s.drive sig).fsm = s.fsm := rfl
@[simp] theorem State.drive_row (sig : Sig) : (s.drive sig).row = s.row := rfl
@[simp] theorem State.drive_k (sig : Sig) : (s.drive sig).k = s.k := rfl
@[simp] theorem State.drive_phase (sig : Sig) : (s.drive sig).phase = s.phase := rfl
@[simp] theorem State.drive_stopreq (sig : Sig) : (s.drive sig).stopreq = s.stopreq := rfl
@[simp] theorem State.drive_errflag (sig : Sig) : (s.drive sig).errflag = s.errflag := rfl
@[simp] theorem State.drive_err (sig : Sig) : (s.drive sig).err = s.err := rfl
@[simp] theorem State.drive_showcnt (sig : Sig) : (s.drive sig).showcnt = s.showcnt := rfl
@[simp] theorem State.drive_out (sig : Sig) : (s.drive sig).out = sig := rfl
@[simp] theorem State.drive_fbW (sig : Sig) : (s.drive sig).fbW = s.fbW := rfl
@[simp] theorem State.drive_fbH (sig : Sig) : (s.drive sig).fbH = s.fbH := rfl
@[simp] theorem State.drive_fb (sig : Sig) : (s.drive sig).fb = s.fb := rfl
@[simp] theorem State.drive_pending (sig : Sig) : (s.drive sig).pending = s.pending := rfl
@[simp] theorem State.drive_active (sig : Sig) : (s.drive sig).active = s.active := rfl
@[simp] theorem State.drive_pk (sig : Sig) : (s.drive sig).pk = s.pk := rfl
@[simp] theorem State.drive_u (sig : Sig) : (s.drive sig).u = s.u := rfl
@[simp] theorem State.drive_dw (sig : Sig) : (s.drive sig).dw = s.dw := rfl
@[simp] theorem State.drive_trace (sig : Sig) : (s.drive sig).trace = s.trace := rfl
@[simp] theorem State.drive_displayed (sig : Sig) : (s.drive sig).displayed = s.displayed := rfl
@[simp] theorem State.drive_program (sig : Sig) : (s.drive sig).program = s.program := rfl
@[simp] theorem State.drive_turns (sig : Sig) : (s.drive sig).turns = s.turns := rfl
@[simp] theorem State.drive_answers (sig : Sig) : (s.drive sig).answers = s.answers := rfl
@[simp] theorem State.drive_answersRest (sig : Sig) : (s.drive sig).answersRest = s.answersRest := rfl
@[simp] theorem State.drive_freeTurns (sig : Sig) : (s.drive sig).freeTurns = s.freeTurns := rfl
@[simp] theorem State.drive_freeAnswers (sig : Sig) : (s.drive sig).freeAnswers = s.freeAnswers := rfl
@[simp] theorem State.drive_fbGen (sig : Sig) : (s.drive sig).fbGen = s.fbGen := rfl
@[simp] theorem State.drive_result (sig : Sig) : (s.drive sig).result = s.result := rfl

/-! ### logLine -/

@[simp] theorem State.logLine_params (lw dur : Nat) (st : Status) : (s.logLine lw dur st).params = s.params := rfl
@[simp] theorem State.logLine_cfg (lw dur : Nat) (st : Status) : (s.logLine lw dur st).cfg = s.cfg := rfl
@[simp] theorem State.logLine_life (lw dur : Nat) (st : Status) : (s.logLine lw dur st).life = s.life := rfl
@[simp] theorem State.logLine_fsm (lw dur : Nat) (st : Status) : (s.logLine lw dur st).fsm = s.fsm := rfl
@[simp] theorem State.logLine_row (lw dur : Nat) (st : Status) : (s.logLine lw dur st).row = s.row := rfl
@[simp] theorem State.logLine_k (lw dur : Nat) (st : Status) : (s.logLine lw dur st).k = s.k := rfl
@[simp] theorem State.logLine_phase (lw dur : Nat) (st : Status) : (s.logLine lw dur st).phase = s.phase := rfl
@[simp] theorem State.logLine_stopreq (lw dur : Nat) (st : Status) : (s.logLine lw dur st).stopreq = s.stopreq := rfl
@[simp] theorem State.logLine_errflag (lw dur : Nat) (st : Status) : (s.logLine lw dur st).errflag = s.errflag := rfl
@[simp] theorem State.logLine_err (lw dur : Nat) (st : Status) : (s.logLine lw dur st).err = s.err := rfl
@[simp] theorem State.logLine_showcnt (lw dur : Nat) (st : Status) : (s.logLine lw dur st).showcnt = s.showcnt := rfl
@[simp] theorem State.logLine_out (lw dur : Nat) (st : Status) : (s.logLine lw dur st).out = s.out := rfl
@[simp] theorem State.logLine_fbW (lw dur : Nat) (st : Status) : (s.logLine lw dur st).fbW = s.fbW := rfl
@[simp] theorem State.logLine_fbH (lw dur : Nat) (st : Status) : (s.logLine lw dur st).fbH = s.fbH := rfl
@[simp] theorem State.logLine_fb (lw dur : Nat) (st : Status) : (s.logLine lw dur st).fb = s.fb := rfl
@[simp] theorem State.logLine_pending (lw dur : Nat) (st : Status) : (s.logLine lw dur st).pending = s.pending := rfl
@[simp] theorem State.logLine_active (lw dur : Nat) (st : Status) : (s.logLine lw dur st).active = s.active := rfl
@[simp] theorem State.logLine_pk (lw dur : Nat) (st : Status) : (s.logLine lw dur st).pk = s.pk := rfl
@[simp] theorem State.logLine_u (lw dur : Nat) (st : Status) : (s.logLine lw dur st).u = s.u := rfl
@[simp] theorem State.logLine_dw (lw dur : Nat) (st : Status) : (s.logLine lw dur st).dw = s.dw := rfl
@[simp] theorem State.logLine_trace (lw dur : Nat) (st : Status) : (s.logLine lw dur st).trace = s.trace ++ [⟨lw, dur, st⟩] := rfl
@[simp] theorem State.logLine_displayed (lw dur : Nat) (st : Status) : (s.logLine lw dur st).displayed = s.displayed := rfl
@[simp] theorem State.logLine_program (lw dur : Nat) (st : Status) : (s.logLine lw dur st).program = s.program := rfl
@[simp] theorem State.logLine_turns (lw dur : Nat) (st : Status) : (s.logLine lw dur st).turns = s.turns := rfl
@[simp] theorem State.logLine_answers (lw dur : Nat) (st : Status) : (s.logLine lw dur st).answers = s.answers := rfl
@[simp] theorem State.logLine_answersRest (lw dur : Nat) (st : Status) : (s.logLine lw dur st).answersRest = s.answersRest := rfl
@[simp] theorem State.logLine_freeTurns (lw dur : Nat) (st : Status) : (s.logLine lw dur st).freeTurns = s.freeTurns := rfl
@[simp] theorem State.logLine_freeAnswers (lw dur : Nat) (st : Status) : (s.logLine lw dur st).freeAnswers = s.freeAnswers := rfl
@[simp] theorem State.logLine_fbGen (lw dur : Nat) (st : Status) : (s.logLine lw dur st).fbGen = s.fbGen := rfl
@[simp] theorem State.logLine_result (lw dur : Nat) (st : Status) : (s.logLine lw dur st).result = s.result := rfl

/-! ### nextPhase -/

@[simp] theorem State.nextPhase_params : (s.nextPhase).params = s.params := rfl
@[simp] theorem State.nextPhase_cfg : (s.nextPhase).cfg = s.cfg := rfl
@[simp] theorem State.nextPhase_life : (s.nextPhase).life = s.life := rfl
@[simp] theorem State.nextPhase_fsm : (s.nextPhase).fsm = s.fsm := rfl
@[simp] theorem State.nextPhase_row : (s.nextPhase).row = s.row := rfl
@[simp] theorem State.nextPhase_k : (s.nextPhase).k = s.k := rfl
@[simp] theorem State.nextPhase_phase : (s.nextPhase).phase = s.phase + 1 := rfl
@[simp] theorem State.nextPhase_stopreq : (s.nextPhase).stopreq = s.stopreq := rfl
@[simp] theorem State.nextPhase_errflag : (s.nextPhase).errflag = s.errflag := rfl
@[simp] theorem State.nextPhase_err : (s.nextPhase).err = s.err := rfl
@[simp] theorem State.nextPhase_showcnt : (s.nextPhase).showcnt = s.showcnt := rfl
@[simp] theorem State.nextPhase_out : (s.nextPhase).out = s.out := rfl
@[simp] theorem State.nextPhase_fbW : (s.nextPhase).fbW = s.fbW := rfl
@[simp] theorem State.nextPhase_fbH : (s.nextPhase).fbH = s.fbH := rfl
@[simp] theorem State.nextPhase_fb : (s.nextPhase).fb = s.fb := rfl
@[simp] theorem State.nextPhase_pending : (s.nextPhase).pending = s.pending := rfl
@[simp] theorem State.nextPhase_active : (s.nextPhase).active = s.active := rfl
@[simp] theorem State.nextPhase_pk : (s.nextPhase).pk = s.pk := rfl
@[simp] theorem State.nextPhase_u : (s.nextPhase).u = s.u := rfl
@[simp] theorem State.nextPhase_dw : (s.nextPhase).dw = s.dw := rfl
@[simp] theorem State.nextPhase_trace : (s.nextPhase).trace = s.trace := rfl
@[simp] theorem State.nextPhase_displayed : (s.nextPhase).displayed = s.displayed := rfl
@[simp] theorem State.nextPhase_program : (s.nextPhase).program = s.program := rfl
@[simp] theorem State.nextPhase_turns : (s.nextPhase).turns = s.turns := rfl
@[simp] theorem State.nextPhase_answers : (s.nextPhase).answers = s.answers := rfl
@[simp] theorem State.nextPhase_answersRest : (s.nextPhase).answersRest = s.answersRest := rfl
@[simp] theorem State.nextPhase_freeTurns : (s.nextPhase).freeTurns = s.freeTurns := rfl
@[simp] theorem State.nextPhase_freeAnswers : (s.nextPhase).freeAnswers = s.freeAnswers := rfl
@[simp] theorem State.nextPhase_fbGen : (s.nextPhase).fbGen = s.fbGen := rfl
@[simp] theorem State.nextPhase_result : (s.nextPhase).result = s.result := rfl

/-! ### goto -/

@[simp] theorem State.goto_params (f : Fsm) : (s.goto f).params = s.params := rfl
@[simp] theorem State.goto_cfg (f : Fsm) : (s.goto f).cfg = s.cfg := rfl
@[simp] theorem State.goto_life (f : Fsm) : (s.goto f).life = s.life := rfl
@[simp] theorem State.goto_fsm (f : Fsm) : (s.goto f).fsm = f := rfl
@[simp] theorem State.goto_row (f : Fsm) : (s.goto f).row = s.row := rfl
@[simp] theorem State.goto_k (f : Fsm) : (s.goto f).k = s.k := rfl
@[simp] theorem State.goto_phase (f : Fsm) : (s.goto f).phase = s.phase := rfl
@[simp] theorem State.goto_stopreq (f : Fsm) : (s.goto f).stopreq = s.stopreq := rfl
@[simp] theorem State.goto_errflag (f : Fsm) : (s.goto f).errflag = s.errflag := rfl
@[simp] theorem State.goto_err (f : Fsm) : (s.goto f).err = s.err := rfl
@[simp] theorem State.goto_showcnt (f : Fsm) : (s.goto f).showcnt = s.showcnt := rfl
@[simp] theorem State.goto_out (f : Fsm) : (s.goto f).out = s.out := rfl
@[simp] theorem State.goto_fbW (f : Fsm) : (s.goto f).fbW = s.fbW := rfl
@[simp] theorem State.goto_fbH (f : Fsm) : (s.goto f).fbH = s.fbH := rfl
@[simp] theorem State.goto_fb (f : Fsm) : (s.goto f).fb = s.fb := rfl
@[simp] theorem State.goto_pending (f : Fsm) : (s.goto f).pending = s.pending := rfl
@[simp] theorem State.goto_active (f : Fsm) : (s.goto f).active = s.active := rfl
@[simp] theorem State.goto_pk (f : Fsm) : (s.goto f).pk = s.pk := rfl
@[simp] theorem State.goto_u (f : Fsm) : (s.goto f).u = s.u := rfl
@[simp] theorem State.goto_dw (f : Fsm) : (s.goto f).dw = s.dw := rfl
@[simp] theorem State.goto_trace (f : Fsm) : (s.goto f).trace = s.trace := rfl
@[simp] theorem State.goto_displayed (f : Fsm) : (s.goto f).displayed = s.displayed := rfl
@[simp] theorem State.goto_program (f : Fsm) : (s.goto f).program = s.program := rfl
@[simp] theorem State.goto_turns (f : Fsm) : (s.goto f).turns = s.turns := rfl
@[simp] theorem State.goto_answers (f : Fsm) : (s.goto f).answers = s.answers := rfl
@[simp] theorem State.goto_answersRest (f : Fsm) : (s.goto f).answersRest = s.answersRest := rfl
@[simp] theorem State.goto_freeTurns (f : Fsm) : (s.goto f).freeTurns = s.freeTurns := rfl
@[simp] theorem State.goto_freeAnswers (f : Fsm) : (s.goto f).freeAnswers = s.freeAnswers := rfl
@[simp] theorem State.goto_fbGen (f : Fsm) : (s.goto f).fbGen = s.fbGen := rfl
@[simp] theorem State.goto_result (f : Fsm) : (s.goto f).result = s.result := rfl

/-! ### setFbByte -/

@[simp] theorem State.setFbByte_params (a : Nat) (v : Byte) : (s.setFbByte a v).params = s.params := rfl
@[simp] theorem State.setFbByte_cfg (a : Nat) (v : Byte) : (s.setFbByte a v).cfg = s.cfg := rfl
@[simp] theorem State.setFbByte_life (a : Nat) (v : Byte) : (s.setFbByte a v).life = s.life := rfl
@[simp] theorem State.setFbByte_fsm (a : Nat) (v : Byte) : (s.setFbByte a v).fsm = s.fsm := rfl
@[simp] theorem State.setFbByte_row (a : Nat) (v : Byte) : (s.setFbByte a v).row = s.row := rfl
@[simp] theorem State.setFbByte_k (a : Nat) (v : Byte) : (s.setFbByte a v).k = s.k := rfl
@[simp] theorem State.setFbByte_phase (a : Nat) (v : Byte) : (s.setFbByte a v).phase = s.phase := rfl
@[simp] theorem State.setFbByte_stopreq (a : Nat) (v : Byte) : (s.setFbByte a v).stopreq = s.stopreq := rfl
@[simp] theorem State.setFbByte_errflag (a : Nat) (v : Byte) : (s.setFbByte a v).errflag = s.errflag := rfl
@[simp] theorem State.setFbByte_err (a : Nat) (v : Byte) : (s.setFbByte a v).err = s.err := rfl
@[simp] theorem State.setFbByte_showcnt (a : Nat) (v : Byte) : (s.setFbByte a v).showcnt = s.showcnt := rfl
@[simp] theorem State.setFbByte_out (a : Nat) (v : Byte) : (s.setFbByte a v).out = s.out := rfl
@[simp] theorem State.setFbByte_fbW (a : Nat) (v : Byte) : (s.setFbByte a v).fbW = s.fbW := rfl
@[simp] theorem State.setFbByte_fbH (a : Nat) (v : Byte) : (s.setFbByte a v).fbH = s.fbH := rfl
@[simp] theorem State.setFbByte_fb (a : Nat) (v : Byte) : (s.setFbByte a v).fb = s.fb.write a v := rfl
@[simp] theorem State.setFbByte_pending (a : Nat) (v : Byte) : (s.setFbByte a v).pending = s.pending := rfl
@[simp] theorem State.setFbByte_active (a : Nat) (v : Byte) : (s.setFbByte a v).active = s.active := rfl
@[simp] theorem State.setFbByte_pk (a : Nat) (v : Byte) : (s.setFbByte a v).pk = s.pk := rfl
@[simp] theorem State.setFbByte_u (a : Nat) (v : Byte) : (s.setFbByte a v).u = s.u := rfl
@[simp] theorem State.setFbByte_dw (a : Nat) (v : Byte) : (s.setFbByte a v).dw = s.dw := rfl
@[simp] theorem State.setFbByte_trace (a : Nat) (v : Byte) : (s.setFbByte a v).trace = s.trace := rfl
@[simp] theorem State.setFbByte_displayed (a : Nat) (v : Byte) : (s.setFbByte a v).displayed = s.displayed := rfl
@[simp] theorem State.setFbByte_program (a : Nat) (v : Byte) : (s.setFbByte a v).program = s.program := rfl
@[simp] theorem State.setFbByte_turns (a : Nat) (v : Byte) : (s.setFbByte a v).turns = s.turns := rfl
@[simp] theorem State.setFbByte_answers (a : Nat) (v : Byte) : (s.setFbByte a v).answers = s.answers := rfl
@[simp] theorem State.setFbByte_answersRest (a : Nat) (v : Byte) : (s.setFbByte a v).answersRest = s.answersRest := rfl
@[simp] theorem State.setFbByte_freeTurns (a : Nat) (v : Byte) : (s.setFbByte a v).freeTurns = s.freeTurns := rfl
@[simp] theorem State.setFbByte_freeAnswers (a : Nat) (v : Byte) : (s.setFbByte a v).freeAnswers = s.freeAnswers := rfl
@[simp] theorem State.setFbByte_fbGen (a : Nat) (v : Byte) : (s.setFbByte a v).fbGen = s.fbGen := rfl
@[simp] theorem State.setFbByte_result (a : Nat) (v : Byte) : (s.setFbByte a v).result = s.result := rfl

/-! ### allocateFb -/

@[simp] theorem State.allocateFb_params (w h : Nat) : (s.allocateFb w h).params = s.params := rfl
@[simp] theorem State.allocateFb_cfg (w h : Nat) : (s.allocateFb w h).cfg = s.cfg := rfl
@[simp] theorem State.allocateFb_life (w h : Nat) : (s.allocateFb w h).life = s.life := rfl
@[simp] theorem State.allocateFb_fsm (w h : Nat) : (s.allocateFb w h).fsm = s.fsm := rfl
@[simp] theorem State.allocateFb_row (w h : Nat) : (s.allocateFb w h).row = s.row := rfl
@[simp] theorem State.allocateFb_k (w h : Nat) : (s.allocateFb w h).k = s.k := rfl
@[simp] theorem State.allocateFb_phase (w h : Nat) : (s.allocateFb w h).phase = s.phase := rfl
@[simp] theorem State.allocateFb_stopreq (w h : Nat) : (s.allocateFb w h).stopreq = s.stopreq := rfl
@[simp] theorem State.allocateFb_errflag (w h : Nat) : (s.allocateFb w h).errflag = s.errflag := rfl
@[simp] theorem State.allocateFb_err (w h : Nat) : (s.allocateFb w h).err = s.err := rfl
@[simp] theorem State.allocateFb_showcnt (w h : Nat) : (s.allocateFb w h).showcnt = s.showcnt := rfl
@[simp] theorem State.allocateFb_out (w h : Nat) : (s.allocateFb w h).out = s.out := rfl
@[simp] theorem State.allocateFb_fbW (w h : Nat) : (s.allocateFb w h).fbW = w := rfl
@[simp] theorem State.allocateFb_fbH (w h : Nat) : (s.allocateFb w h).fbH = h := rfl
@[simp] theorem State.allocateFb_fb (w h : Nat) : (s.allocateFb w h).fb = [] := rfl
@[simp] theorem State.allocateFb_pending (w h : Nat) : (s.allocateFb w h).pending = s.pending := rfl
@[simp] theorem State.allocateFb_active (w h : Nat) : (s.allocateFb w h).active = s.active := rfl
@[simp] theorem State.allocateFb_pk (w h : Nat) : (s.allocateFb w h).pk = s.pk := rfl
@[simp] theorem State.allocateFb_u (w h : Nat) : (s.allocateFb w h).u = s.u := rfl
@[simp] theorem State.allocateFb_dw (w h : Nat) : (s.allocateFb w h).dw = s.dw := rfl
@[simp] theorem State.allocateFb_trace (w h : Nat) : (s.allocateFb w h).trace = s.trace := rfl
@[simp] theorem State.allocateFb_displayed (w h : Nat) : (s.allocateFb w h).displayed = s.displayed := rfl
@[simp] theorem State.allocateFb_program (w h : Nat) : (s.allocateFb w h).program = s.program := rfl
@[simp] theorem State.allocateFb_turns (w h : Nat) : (s.allocateFb w h).turns = s.turns := rfl
@[simp] theorem State.allocateFb_answers (w h : Nat) : (s.allocateFb w h).answers = s.answers := rfl
@[simp] theorem State.allocateFb_answersRest (w h : Nat) : (s.allocateFb w h).answersRest = s.answersRest := rfl
@[simp] theorem State.allocateFb_freeTurns (w h : Nat) : (s.allocateFb w h).freeTurns = s.freeTurns := rfl
@[simp] theorem State.allocateFb_freeAnswers (w h : Nat) : (s.allocateFb w h).freeAnswers = s.freeAnswers := rfl
@[simp] theorem State.allocateFb_fbGen (w h : Nat) : (s.allocateFb w h).fbGen = s.fbGen + 1 := rfl
@[simp] theorem State.allocateFb_result (w h : Nat) : (s.allocateFb w h).result = s.result := rfl

/-! ### nextPlane -/

@[simp] theorem State.nextPlane_params : (s.nextPlane).params = s.params := rfl
@[simp] theorem State.nextPlane_cfg : (s.nextPlane).cfg = s.cfg := rfl
@[simp] theorem State.nextPlane_life : (s.nextPlane).life = s.life := rfl
@[simp] theorem State.nextPlane_fsm : (s.nextPlane).fsm = s.fsm := rfl
@[simp] theorem State.nextPlane_row : (s.nextPlane).row = s.row := rfl
@[simp] theorem State.nextPlane_k : (s.nextPlane).k = (s.k + 1) % s.params.depth := rfl
@[simp] theorem State.nextPlane_phase : (s.nextPlane).phase = 0 := rfl
@[simp] theorem State.nextPlane_stopreq : (s.nextPlane).stopreq = s.stopreq := rfl
@[simp] theorem State.nextPlane_errflag : (s.nextPlane).errflag = s.errflag := rfl
@[simp] theorem State.nextPlane_err : (s.nextPlane).err = s.err := rfl
@[simp] theorem State.nextPlane_showcnt : (s.nextPlane).showcnt = s.showcnt := rfl
@[simp] theorem State.nextPlane_out : (s.nextPlane).out = s.out := rfl
@[simp] theorem State.nextPlane_fbW : (s.nextPlane).fbW = s.fbW := rfl
@[simp] theorem State.nextPlane_fbH : (s.nextPlane).fbH = s.fbH := rfl
@[simp] theorem State.nextPlane_fb : (s.nextPlane).fb = s.fb := rfl
@[simp] theorem State.nextPlane_pending : (s.nextPlane).pending = s.pending := rfl
@[simp] theorem State.nextPlane_active : (s.nextPlane).active = s.active := rfl
@[simp] theorem State.nextPlane_pk : (s.nextPlane).pk = s.pk := rfl
@[simp] theorem State.nextPlane_u : (s.nextPlane).u = s.u := rfl
@[simp] theorem State.nextPlane_dw : (s.nextPlane).dw = s.dw := rfl
@[simp] theorem State.nextPlane_trace : (s.nextPlane).trace = s.trace := rfl
@[simp] theorem State.nextPlane_displayed : (s.nextPlane).displayed = s.displayed := rfl
@[simp] theorem State.nextPlane_program : (s.nextPlane).program = s.program := rfl
@[simp] theorem State.nextPlane_turns : (s.nextPlane).turns = s.turns := rfl
@[simp] theorem State.nextPlane_answers : (s.nextPlane).answers = s.answers := rfl
@[simp] theorem State.nextPlane_answersRest : (s.nextPlane).answersRest = s.answersRest := rfl
@[simp] theorem State.nextPlane_freeTurns : (s.nextPlane).freeTurns = s.freeTurns := rfl
@[simp] theorem State.nextPlane_freeAnswers : (s.nextPlane).freeAnswers = s.freeAnswers := rfl
@[simp] theorem State.nextPlane_fbGen : (s.nextPlane).fbGen = s.fbGen := rfl
@[simp] theorem State.nextPlane_result : (s.nextPlane).result = s.result := rfl

end Sys2Proof.Machine
end

