-- ==== Sys2Proof/Laws/Memory.lean ====
section
/-! SUPPORT. FB's memory: reading after a write, and the canonical form kept by every memory operation. -/

namespace Sys2Proof.Machine

theorem Memory.read?_write_same (m : Memory) (a : Nat) (v : Byte) : (m.write a v).read? a = some v := by
  induction m with
  | nil => simp [Memory.write, Memory.read?]
  | cons e m ih =>
    obtain ⟨k, w⟩ := e
    unfold Memory.write
    split
    · simp [Memory.read?]
    · split
      · simp [Memory.read?]
      · rename_i h1 h2
        simp only [Memory.read?]
        rw [if_neg (fun h => h2 h.symm), ih]

theorem Memory.read?_write_other (m : Memory) (a b : Nat) (v : Byte) (h : b ≠ a) :
    (m.write a v).read? b = m.read? b := by
  induction m with
  | nil => simp [Memory.write, Memory.read?, Ne.symm h]
  | cons e m ih =>
    obtain ⟨k, w⟩ := e
    unfold Memory.write
    split
    · simp [Memory.read?, Ne.symm h]
    · split
      · rename_i h1 h2
        subst h2
        simp [Memory.read?, Ne.symm h]
      · simp only [Memory.read?, ih]

/-- Every entry after a write is the written one or was there before. -/
theorem Memory.mem_write {m : Memory} {a : Nat} {v : Byte} {e : Host.Cell} (h : e ∈ m.write a v) :
    e = (a, v) ∨ e ∈ m := by
  induction m with
  | nil => simpa [Memory.write] using h
  | cons c m ih =>
    obtain ⟨k, w⟩ := c
    unfold Memory.write at h
    split at h
    · simpa using h
    · split at h
      · rcases List.mem_cons.1 h with h | h
        · exact .inl h
        · exact .inr (List.mem_cons_of_mem _ h)
      · rcases List.mem_cons.1 h with h | h
        · exact .inr (h ▸ List.mem_cons_self)
        · rcases ih h with h | h
          · exact .inl h
          · exact .inr (List.mem_cons_of_mem _ h)

/-- A write keeps the canonical form. -/
theorem Memory.write_wf {m : Memory} (h : m.wf) (a : Nat) (v : Byte) : (m.write a v).wf := by
  induction m with
  | nil => simp [Memory.write, Memory.wf]
  | cons e m ih =>
    obtain ⟨k, w⟩ := e
    have hk := List.pairwise_cons.1 h
    unfold Memory.write
    split
    · rename_i hak
      refine List.pairwise_cons.2 ⟨?_, h⟩
      intro p hp
      rcases List.mem_cons.1 hp with rfl | hp
      · exact hak
      · exact Nat.lt_trans hak (hk.1 p hp)
    · split
      · rename_i hak
        subst hak
        exact List.pairwise_cons.2 ⟨hk.1, hk.2⟩
      · refine List.pairwise_cons.2 ⟨?_, ih hk.2⟩
        intro p hp
        rcases Memory.mem_write hp with rfl | hp
        · show k < a
          omega
        · exact hk.1 p hp

theorem Memory.nil_wf : Memory.wf [] := List.Pairwise.nil

theorem State.reset_fb_wf : State.reset.fb.wf := Memory.nil_wf

/-- FB after FBWRITE's store: the written byte, and every other byte as before. -/
theorem State.fbByte_setFbByte (s : State) (a b : Nat) (v : Byte) :
    (s.setFbByte a v).fbByte b = if b = a then v else s.fbByte b := by
  unfold State.fbByte
  split_ifs with h
  · subst h
    simp [Memory.read?_write_same]
  · simp [Memory.read?_write_other _ _ _ _ h]

end Sys2Proof.Machine
end

