-- ==== Sys2Proof/Laws/Ops.lean ====
section
/-! SUPPORT. What each shared operation can do, said once. -/

namespace Sys2Proof.Machine

/-! ### Guards -/

@[simp] theorem guarded_true (why : Refusal) (t : State) : guarded true why t = .next t := rfl

@[simp] theorem guarded_false (why : Refusal) (t : State) : guarded false why t = .refused why := rfl

theorem guarded_next {ok : Bool} {why : Refusal} {t t' : State} (h : guarded ok why t = .next t') :
    ok = true ∧ t' = t := by
  cases ok
  · cases h
  · cases h; exact ⟨rfl, rfl⟩

theorem withInstance_next {s t t' : State} {ok : Bool} (h : s.withInstance ok t = .next t') :
    s.life = .constructed ∧ ok = true ∧ t' = t := by
  unfold State.withInstance at h
  split at h
  · exact ⟨‹_›, guarded_next h⟩
  · cases h

theorem withInstance_of {s t : State} {ok : Bool} (hl : s.life = .constructed) (hok : ok = true) :
    s.withInstance ok t = .next t := by simp [State.withInstance, hl, hok]

/-! ### Outcomes in a row -/

@[simp] theorem andThen_next (s : State) (f : State → Host.Outcome State Fault Refusal) : andThen (.next s) f = f s := rfl

theorem andThen_eq_next {o : Host.Outcome State Fault Refusal} {f : State → Host.Outcome State Fault Refusal} {t : State}
    (h : andThen o f = .next t) : ∃ s, o = .next s ∧ f s = .next t := by
  cases o with
  | next s => exact ⟨s, rfl, h⟩
  | fault r => cases h
  | refused r => cases h

/-- Runs of micro-steps in a row are one run. -/
theorem microSteps_add (m n : Nat) (s : State) : microSteps (m + n) s = andThen (microSteps m s) (microSteps n) := by
  induction m generalizing s with
  | zero => rw [Nat.zero_add]; rfl
  | succ m ih =>
    rw [Nat.add_right_comm]
    change andThen (microStep s) (microSteps (m + n)) = andThen (andThen (microStep s) (microSteps m)) (microSteps n)
    cases microStep s with
    | next t => exact ih t
    | fault r => rfl
    | refused r => rfl

/-! ### Line writes -/

/-- Taking an answer moves the two answer fields and nothing else. -/
theorem State.takeAnswer_cases (s : State) : ∃ as n, s.takeAnswer.2 = { s with answers := as, freeAnswers := n } := by
  unfold State.takeAnswer
  split
  · exact ⟨_, s.freeAnswers, rfl⟩
  · split
    · exact ⟨s.answers, s.freeAnswers, rfl⟩
    · exact ⟨s.answers, _, rfl⟩

/-- The answer taken is the one `answerAt` says comes next. -/
theorem State.takeAnswer_fst (s : State) : s.takeAnswer.1 = s.answerAt 0 := by
  unfold State.takeAnswer State.answerAt
  cases s.answers with
  | nil => cases s.answersRest <;> rfl
  | cons a as => rfl

/-- Taking an answer moves the ones after it up by one. -/
theorem State.answerAt_takeAnswer (s : State) (n : Nat) : s.takeAnswer.2.answerAt n = s.answerAt (n + 1) := by
  unfold State.takeAnswer State.answerAt
  rcases hs : s.answers with - | ⟨a, as⟩
  · cases hr : s.answersRest with
    | none =>
      simp only [List.getElem?_nil, List.length_nil, Option.getD_none]
      congr 1
      omega
    | some b => simp [hs, hr]
  · simp only [List.getElem?_cons_succ, List.length_cons, Nat.add_sub_add_right]

/-- Only the three answer fields say what the device answers. -/
theorem State.answerAt_congr {s t : State} (h1 : t.answers = s.answers) (h2 : t.answersRest = s.answersRest)
    (h3 : t.freeAnswers = s.freeAnswers) (n : Nat) : t.answerAt n = s.answerAt n := by
  simp only [State.answerAt, h1, h2, h3]

theorem State.takeAnswer_of {s : State} {a : Answer} {as : List Answer} (h : s.answers = a :: as) :
    s.takeAnswer = (a, { s with answers := as }) := by simp [State.takeAnswer, h]

/-- A line write of a micro-step either goes on from the driven lines or takes the DeviceError entry. -/
theorem State.writeOrTrap_cases (s : State) (sig : Sig) (dur : Nat) (f : State → State) :
    ∃ as n,
      s.writeOrTrap sig dur f =
        f { s with answers := as, freeAnswers := n, out := sig,
                   trace := s.trace ++ [⟨s.cfg.lineWord sig, dur, .ok⟩] } ∨
      s.writeOrTrap sig dur f =
        State.deviceErrorEntry { s with answers := as, freeAnswers := n,
                                        trace := s.trace ++ [⟨s.cfg.lineWord sig, dur, .fail⟩] } := by
  obtain ⟨as, n, h⟩ := s.takeAnswer_cases
  refine ⟨as, n, ?_⟩
  unfold State.writeOrTrap State.lineWrite
  rcases hx : s.takeAnswer with ⟨a, t⟩
  rw [hx] at h
  simp only at h
  subst h
  cases a
  · exact .inl rfl
  · exact .inr rfl

/-- A line write that the device will answer ok goes on, and the answers move up. -/
theorem State.writeOrTrap_answerOk {s : State} (h : s.answerAt 0 = .ok) (sig : Sig) (dur : Nat) (f : State → State) :
    ∃ as n,
      s.writeOrTrap sig dur f =
        f { s with answers := as, freeAnswers := n, out := sig,
                   trace := s.trace ++ [⟨s.cfg.lineWord sig, dur, .ok⟩] } ∧
      ∀ m, State.answerAt { s with answers := as, freeAnswers := n } m = s.answerAt (m + 1) := by
  obtain ⟨as, n, hs⟩ := s.takeAnswer_cases
  refine ⟨as, n, ?_, fun m => by rw [← hs, s.answerAt_takeAnswer]⟩
  unfold State.writeOrTrap State.lineWrite
  rw [← s.takeAnswer_fst] at h
  rcases hx : s.takeAnswer with ⟨a, t⟩
  rw [hx] at h hs
  simp only at h hs
  subst h hs
  rfl

theorem State.writeOrTrap_ok {s : State} {as : List Answer} (h : s.answers = .ok :: as) (sig : Sig) (dur : Nat)
    (f : State → State) :
    s.writeOrTrap sig dur f =
      f { s with answers := as, out := sig, trace := s.trace ++ [⟨s.cfg.lineWord sig, dur, .ok⟩] } := by
  unfold State.writeOrTrap State.lineWrite
  rw [State.takeAnswer_of h]
  rfl

theorem State.writeOrTrap_fail {s : State} {as : List Answer} (h : s.answers = .fail :: as) (sig : Sig) (dur : Nat)
    (f : State → State) :
    s.writeOrTrap sig dur f =
      State.deviceErrorEntry { s with answers := as,
                                      trace := s.trace ++ [⟨s.cfg.lineWord sig, dur, .fail⟩] } := by
  unfold State.writeOrTrap State.lineWrite
  rw [State.takeAnswer_of h]
  rfl

/-- The DeviceError entry, field by field (60_exceptions.md R256, R257). -/
theorem State.deviceErrorEntry_eq (s : State) :
    s.deviceErrorEntry =
      { s with out := Sig.allOff, trace := s.trace ++ [⟨0, 0, .forced⟩], err := .deviceError, errflag := true,
               pending := { s.pending with valid := false }, fsm := .idle, row := 0, k := 0, phase := 0 } := rfl

/-- The stop entry, field by field (43_output_scheduler.md R204). -/
theorem State.stopEntry_eq (s : State) :
    s.stopEntry =
      { s with out := Sig.allOff, trace := s.trace ++ [⟨0, 0, .forced⟩],
               pending := { s.pending with valid := false }, fsm := .idle, row := 0, k := 0, phase := 0 } := rfl

/-! ### The take -/

/-- SCHED.TAKE with an empty mailbox displays ACTIVE again. -/
theorem State.take_empty {s : State} (h : s.pending.valid = false) :
    s.take = { s with displayed := s.displayed ++ [s.active.id] } := by simp [State.take, h]

/-- SCHED.TAKE with a frame waiting. -/
theorem State.take_full {s : State} (h : s.pending.valid = true) :
    s.take =
      { s with
        active := ⟨s.pending.id, s.pending.frame⟩
        pending := { s.pending with valid := false }
        pk := s.cfg.packFrame s.pending.frame
        u := s.cfg.unpackFrame (s.cfg.packFrame s.pending.frame)
        dw := s.cfg.encodeFrame s.params.depth (s.cfg.unpackFrame (s.cfg.packFrame s.pending.frame))
        displayed := s.displayed ++ [s.pending.id] } := by
  simp only [State.take, h, if_true]
  rfl

/-- The take touches ACTIVE, the mailbox, the derived buffers and DISPLAYED only; these are the fields the line writes
read. -/
theorem State.take_kept (s : State) :
    s.take.out = s.out ∧ s.take.row = s.row ∧ s.take.k = s.k ∧ s.take.phase = s.phase ∧ s.take.fsm = s.fsm ∧
      s.take.cfg = s.cfg ∧ s.take.params = s.params ∧ s.take.trace = s.trace ∧ s.take.answers = s.answers ∧
      s.take.stopreq = s.stopreq := by
  cases hv : s.pending.valid
  · rw [State.take_empty hv]
    simp
  · rw [State.take_full hv]
    simp

/-! ### Reports -/

theorem State.reportError_set {s : State} (h : s.errflag = true) :
    s.reportError = { s with err := .ok, errflag := false, result := .code s.err } := by
  simp only [State.reportError, h, if_true]
  rfl

theorem State.reportError_clear {s : State} (h : s.errflag = false) :
    s.reportError = { s with result := .code .ok } := by
  simp [State.reportError, h, State.answer]

/-! ### Selection -/

theorem State.selects_iff {s : State} {i : Instr} : s.selects i = true ↔ s.selected = some i := by
  simp [State.selects]

theorem State.selects_schedStart {s : State} :
    s.selects .schedStart = true ↔ s.fsm = .idle ∧ s.startEnabled = true := by
  rw [selects_iff]
  unfold State.selected selectMicroStep
  cases s.fsm <;> simp <;> split_ifs <;> simp

theorem State.selects_schedSelect {s : State} :
    s.selects .schedSelect = true ↔ s.fsm = .streamingFrame ∧ s.phase = 0 := by
  rw [selects_iff]
  unfold State.selected selectMicroStep
  cases s.fsm <;> simp <;> split_ifs <;> simp_all

theorem State.selects_schedData {s : State} :
    s.selects .schedData = true ↔ s.fsm = .streamingFrame ∧ s.phase < 2 * s.cfg.width + 1 ∧ s.phase % 2 = 1 := by
  rw [selects_iff]
  unfold State.selected selectMicroStep
  cases s.fsm <;> simp <;> split_ifs <;> simp_all

theorem State.selects_schedClock {s : State} :
    s.selects .schedClock = true ↔
      s.fsm = .streamingFrame ∧ s.phase < 2 * s.cfg.width + 1 ∧ s.phase % 2 = 0 ∧ s.phase ≠ 0 := by
  rw [selects_iff]
  unfold State.selected selectMicroStep
  cases s.fsm <;> simp <;> split_ifs <;> simp_all

theorem State.selects_schedLatch {s : State} :
    s.selects .schedLatch = true ↔ s.fsm = .streamingFrame ∧ s.phase = 2 * s.cfg.width + 1 := by
  rw [selects_iff]
  unfold State.selected selectMicroStep
  cases s.fsm <;> simp <;> split_ifs <;> simp_all <;> omega

theorem State.selects_schedHold {s : State} :
    s.selects .schedHold = true ↔ s.fsm = .streamingFrame ∧ s.phase = 2 * s.cfg.width + 2 := by
  rw [selects_iff]
  unfold State.selected selectMicroStep
  cases s.fsm <;> simp <;> split_ifs <;> simp_all <;> omega

theorem State.selects_schedRowadv {s : State} : s.selects .schedRowadv = true ↔ s.fsm = .rowAdvance := by
  rw [selects_iff]
  unfold State.selected selectMicroStep
  cases s.fsm <;> simp <;> split_ifs <;> simp_all

theorem State.selects_schedPlaneadv {s : State} : s.selects .schedPlaneadv = true ↔ s.fsm = .planeAdvance := by
  rw [selects_iff]
  unfold State.selected selectMicroStep
  cases s.fsm <;> simp <;> split_ifs <;> simp_all

/-- The position selects a micro-step of the scheduler and nothing else. -/
theorem State.selected_cases {s : State} {i : Instr} (h : s.selected = some i) :
    i = .schedStart ∨ i = .schedSelect ∨ i = .schedData ∨ i = .schedClock ∨ i = .schedLatch ∨ i = .schedHold ∨
      i = .schedRowadv ∨ i = .schedPlaneadv := by
  unfold State.selected selectMicroStep at h
  cases hf : s.fsm <;> simp only [hf] at h <;> (repeat' split at h) <;> simp_all

/-! ### Turns -/

/-- Taking a turn moves the two turn fields and nothing else. -/
theorem State.takeTurn_cases (s : State) : ∃ ts n, s.takeTurn.2 = { s with turns := ts, freeTurns := n } := by
  unfold State.takeTurn
  split
  · exact ⟨_, s.freeTurns, rfl⟩
  · exact ⟨s.turns, _, rfl⟩

/-- Everything the host's turn can be: STOP.ack, the next command, or a wait. -/
theorem hostTurn_cases {s t : State} (h : perform s.hostTurn = .next t) :
    (∃ i p rest, s.stopreq = false ∧ s.program = p :: rest ∧ decode p.space p.bytes = .ok (i, []) ∧
      exec i { s with program := rest } = .next t) ∨
    execStopAck s = .next t ∨ t = s := by
  unfold State.hostTurn at h
  split at h
  · split at h
    · exact .inr (.inl h)
    · cases h
      exact .inr (.inr rfl)
  · rename_i hq
    unfold State.fetchCommand at h
    split at h
    · cases h
      exact .inr (.inr rfl)
    · rename_i p rest hp
      split at h
      · rename_i i hd
        exact .inl ⟨i, p, rest, by simpa using hq, hp, hd, h⟩
      · cases h
      · cases h

/-- Everything a step can be, once the turn is taken: the scheduler's micro-step, the host's next command, STOP.ack, the
STOP.req of a host that ends, a wait, or the allocation of a framebuffer. -/
theorem step_cases {s t : State} (h : step s = .next t) :
    ∃ ts n,
      (microStep { s with turns := ts, freeTurns := n } = .next t) ∨
      (∃ i p rest, s.stopreq = false ∧ s.program = p :: rest ∧ decode p.space p.bytes = .ok (i, []) ∧
        exec i { s with turns := ts, freeTurns := n, program := rest } = .next t) ∨
      (execStopAck { s with turns := ts, freeTurns := n } = .next t) ∨
      (execStopReq { s with turns := ts, freeTurns := n, program := [] } = .next t) ∨
      (t = { s with turns := ts, freeTurns := n } ∨ t = { s with turns := ts, freeTurns := n, program := [] }) ∨
      (s.constructEnabled = true ∧ ∃ w h, t = State.allocateFb { s with turns := ts, freeTurns := n } w h) := by
  obtain ⟨ts, n, hs⟩ := s.takeTurn_cases
  refine ⟨ts, n, ?_⟩
  unfold step State.fetch at h
  rcases hx : s.takeTurn with ⟨a, s1⟩
  rw [hx] at h hs
  simp only at hs
  subst hs
  cases a with
  | host =>
    rcases hostTurn_cases h with h | h | h
    · exact .inr (.inl h)
    · exact .inr (.inr (.inl h))
    · exact .inr (.inr (.inr (.inr (.inl (.inl h)))))
  | scheduler => exact .inl h
  | hostEnds =>
    simp only [State.hostEndsTurn] at h
    split at h
    · exact .inr (.inr (.inr (.inl h)))
    · cases h
      exact .inr (.inr (.inr (.inr (.inl (.inr rfl)))))
  | hostAllocates w ht =>
    simp only [State.hostAllocatesTurn] at h
    split at h
    · rename_i hc
      cases h
      exact .inr (.inr (.inr (.inr (.inr ⟨hc, w, ht, rfl⟩))))
    · cases h
      exact .inr (.inr (.inr (.inr (.inl (.inl rfl)))))

/-! ### CONSTRUCT's checks -/

/-- GEOM accepts exactly the geometries of 40_geometry.md R121. -/
theorem geometryOf_ok {width height : Int} {nAddr : Nat} {orient : Orient} {mirror : Bool} {g : Geometry} :
    geometryOf width height nAddr orient mirror = .ok g ↔
      0 < width ∧ 0 < height ∧ height.toNat % 2 ^ nAddr = 0 ∧ (orient.quarter = true → width = height) ∧
        g = ⟨width.toNat, height.toNat, nAddr, orient, mirror⟩ := by
  unfold geometryOf
  split_ifs with h1 h2 h3 h4
  · simp; omega
  · simp; omega
  · simp [h3]
  · simp; intro _ _ _ hq; exact absurd (hq h4.1) h4.2
  · simp only [Except.ok.injEq]
    constructor
    · rintro rfl
      exact ⟨by omega, by omega, by simpa using h3, by tauto, rfl⟩
    · rintro ⟨_, _, _, _, rfl⟩
      rfl

/-- What CONSTRUCT stores if it succeeds. -/
theorem constructCfg_ok {p : BuildParams} {fbW fbH : Nat} {width height : Int} {nAddr : Nat} {orient : Orient}
    {mirror : Bool} {pin : PinoutArg} {cs : Nat} {c : Cfg}
    (h : constructCfg p fbW fbH width height nAddr orient mirror pin cs = .ok c) :
    0 < width ∧ 0 < height ∧ height.toNat % 2 ^ nAddr = 0 ∧ (orient.quarter = true → width = height) ∧
      c.width = fbW ∧ c.height = fbH ∧ (fbW : Int) = width ∧ (fbH : Int) = height ∧
      c.nAddr = nAddr ∧ c.orient = orient ∧ c.mirror = mirror ∧ Format.ofCode cs = some c.format := by
  unfold constructCfg at h
  rcases hg : geometryOf width height nAddr orient mirror with e | g
  · simp [hg] at h
  · simp only [hg] at h
    obtain ⟨h1, h2, h3, h4, rfl⟩ := geometryOf_ok.1 hg
    split at h
    · cases h
    · split at h
      · cases h
      · rename_i f hf
        split at h
        · cases h
        · rename_i hne
          push Not at hne
          cases h
          refine ⟨h1, h2, h3, h4, ?_, ?_, hne.1, hne.2, rfl, rfl, rfl, hf⟩ <;> simp <;> omega

end Sys2Proof.Machine
end

