-- ==== Sys2Proof/Tests/Slice0.lean ====
section
/-! SUPPORT. Tests: expected results are the vectors of 95_test_vectors.md or hand calculations from the rules cited. After
them, for every statement with hypotheses, a concrete state and operands that meet them all. -/

namespace Sys2Proof.Tests

open Sys2Proof Sys2Proof.Machine

/-! ### Small states -/

/-- The next state of an outcome. -/
def nextOf (o : Host.Outcome State Fault Refusal) : Option State :=
  match o with
  | .next s => some s
  | _ => none

/-- What the operation gave its caller. -/
def resultOf (o : Host.Outcome State Fault Refusal) : Option Result := (nextOf o).map State.result

/-- The scheduler position after the operation. -/
def positionOf (o : Host.Outcome State Fault Refusal) : Option (Fsm × Nat × Nat × Nat) :=
  (nextOf o).map fun s => (s.fsm, s.row, s.k, s.phase)

/-- A configuration with the default pinout. -/
def panel (w h n : Nat) (o : Orient) (m : Bool) (f : Format) : Cfg :=
  let c : Cfg := ⟨w, h, n, o, m, f, ⟨0, 0, [], []⟩⟩
  { c with pinout := c.defaultPinout }

/-- An instance with that configuration, in Idle, over a framebuffer of its size that holds nothing. -/
def instanceOf (c : Cfg) : State :=
  { State.reset with cfg := c, life := .constructed, fbW := c.width, fbH := c.height }

/-- The frame F4 of 95_test_vectors.md V-FRAME. -/
def f4 : List Byte := [255, 0, 0, 0, 255, 0, 0, 0, 255, 165, 90, 60]

/-- `Geometry(2,2,1,Normal)` in RGB888Packed. -/
def cfg22 : Cfg := panel 2 2 1 .normal false .rgb888Packed

/-- That panel streaming F4 as frame 1, at a position, with what the lines carry, the stop request, and the inputs that come
next. Two planes, to keep it small. -/
def running (fsm : Fsm) (row k phase : Nat) (out : Sig) (stop : Bool) (turns : List Turn) (answers : List Answer) : State :=
  { instanceOf cfg22 with
    params := { depth := 2 }
    fsm := fsm
    row := row
    k := k
    phase := phase
    out := out
    stopreq := stop
    showcnt := 1
    active := ⟨1, f4⟩
    pk := f4
    u := f4
    dw := cfg22.encodeFrame 2 f4
    displayed := [1]
    turns := turns
    answers := answers }

/-- The 2 by 2 panel in Idle with a frame waiting, or not. -/
def waiting (pending errflag stop : Bool) : State :=
  { instanceOf cfg22 with
    params := { depth := 2 }
    showcnt := 1
    pending := ⟨pending, 1, f4⟩
    errflag := errflag
    err := if errflag then .deviceError else .ok
    stopreq := stop }

/-! ### The operand checks refuse ill-formed terms -/

theorem test_wf_construct : ¬(Instr.construct 2 2 2 2 1 .normal false (.table ⟨0, 0, [1], [2, 3, 4]⟩) 0).WellFormed := by decide

theorem test_wf_fbwrite : ¬(Instr.fbwrite 0 0 3 0).WellFormed := by decide

theorem test_wf_fbread : ¬(Instr.fbread 0 0 3).WellFormed := by decide

theorem test_wf_up : ¬(Instr.up 32 .five).WellFormed := by decide

theorem test_wf_packframe : ¬(Instr.packframe [1, 2]).WellFormed := by decide

theorem test_wf_encode : ¬(Instr.encode [1]).WellFormed := by decide

theorem test_wf_bit : ¬(Instr.bit 0 8).WellFormed := by decide

theorem test_wf_dur : ¬(Instr.dur 8).WellFormed := by decide

theorem test_wf_planeidx : ¬(Instr.planeidx 8).WellFormed := by decide

theorem test_wf_fmtDw : ¬(Instr.fmtDw []).WellFormed := by decide

/-! ### Decoding of words written out from 30_encoding.md -/

/-- P1's encoding `0 (2,2, 2,2,1,0,0, default, 2)`: CMD 000, then the operands in the layout of log 6 (an integer 2 is 4). -/
theorem test_decode_construct :
    decode .command [0b00000000, 2, 2, 4, 4, 1, 0, 0, 0, 2] =
      .ok (.construct 2 2 2 2 1 .normal false .default 2, []) := by rfl

/-- A negative width, R270, mirror, a table and an operand of two bytes. -/
theorem test_decode_construct_table :
    decode .command [0, 2, 2, 1, 0x80, 1, 0, 3, 1, 1, 5, 4, 1, 3, 3, 0, 1, 2, 3] =
      .ok (.construct 2 2 (-1) 64 0 .r270 true (.table ⟨5, 4, [3], [0, 1, 2]⟩) 3, []) := by decide +kernel

theorem test_decode_show : decode .command [0b00000001, 9] = .ok (.showFrame, [9]) := by rfl

theorem test_decode_stopReq : decode .command [0b00000010] = .ok (.stopReq, []) := by rfl

theorem test_decode_poll : decode .command [0b00000011] = .ok (.poll, []) := by rfl

theorem test_decode_fbwrite : decode .command [0b00000100, 1, 0, 2, 255] = .ok (.fbwrite 1 0 2 255, []) := by rfl

theorem test_decode_fbread : decode .command [0b00000101, 0x81, 1, 0, 1] = .ok (.fbread 129 0 1, []) := by rfl

theorem test_decode_reserved : decode .command [0b00000110] = .ok (.cmdReserved6, []) ∧
    decode .command [0b00000111] = .ok (.cmdReserved7, []) := by decide

theorem test_decode_truncated : decode .command [4, 1, 0, 2] = .error .truncated ∧
    decode .command [5, 0x80, 0, 0, 0] = .error .overlong := by decide

/-- R91: `rrrrrggggggbbbbb`, low byte first. 0xA2C7 has the fields 20, 22, 7. -/
theorem test_decode_rgb565 : decode .rgb565 [0b11000111, 0b10100010] = .ok (.fmtRgb565 0b10100 0b010110 0b00111, []) := by
  decide

theorem test_decode_pixels : decode .pix888 [165, 90, 60] = .ok (.fmtPix888 165 90 60, []) ∧
    decode .rgb888 [90] = .ok (.fmtRgb888 90, []) ∧
    decode .rgb888Packed [165, 90, 60] = .ok (.fmtRgb888packed 165 90 60, []) := by decide

theorem test_decode_codes : decode .errCode [0b100] = .ok (.enumErr .deviceError, []) ∧
    decode .fsmCode [0b10] = .ok (.enumFsm .rowAdvance, []) := by decide

theorem test_decode_table_words : decodeTableWord 8 0b000 = some (.construct 0 0 0 0 0 .normal false .default 0) ∧
    decodeTableWord 8 0b101 = some (.fbread 0 0 0) ∧ decodeTableWord 8 0b1000 = none ∧
    decodeTableWord 16 0xF800 = some (.fmtRgb565 31 0 0) := by decide

/-- R102, R197: the position of a 2 pixel wide step selects each micro-step. -/
theorem test_select_micro_steps :
    (List.range 8).map (fun p => selectMicroStep 2 .streamingFrame p false) =
      [some .schedSelect, some .schedData, some .schedClock, some .schedData, some .schedClock, some .schedLatch,
        some .schedHold, none] ∧
    selectMicroStep 2 .rowAdvance 6 true = some .schedRowadv ∧
    selectMicroStep 2 .planeAdvance 6 true = some .schedPlaneadv ∧
    selectMicroStep 2 .idle 0 true = some .schedStart ∧ selectMicroStep 2 .idle 0 false = none := by decide

theorem test_encode_round : encode (.fbwrite 300 0 1 7) = some ⟨.command, [4, 0xAC, 2, 0, 1, 7]⟩ := by decide

/-! ### The host commands -/

/-- V-CMD-1, first row. -/
theorem test_construct_ok :
    (nextOf (exec (.construct 64 64 64 64 4 .normal false .default 2) (State.reset.allocateFb 64 64))).map
      (fun s => (s.result, s.life, s.cfg.mux, s.cfg.nsig)) = some (.code .ok, .constructed, 4, 18) := by decide

/-- V-CMD-1, rows 2, 5 and 6: the order of the three errors. -/
theorem test_construct_errors :
    resultOf (exec (.construct 64 32 64 64 4 .normal false .default 0) State.reset) = some (.code .geometryMismatch) ∧
    resultOf (exec (.construct 64 32 64 64 4 .normal false .default 3) State.reset) = some (.code .unsupportedFormat) ∧
    resultOf (exec (.construct 64 24 64 24 4 .normal false .default 3) State.reset) = some (.code .invalidGeometry) := by
  decide

/-- R232, R29: a byte written to the host's framebuffer before CONSTRUCT is still there after it. -/
theorem test_construct_keeps_fb :
    (nextOf (exec (.construct 64 64 64 64 4 .normal false .default 2)
      (State.reset.allocateFb 64 64 |>.setFbByte 12287 9))).map State.fb = some [(12287, 9)] := by decide

/-- R29: CONSTRUCT succeeds only when FB_W = WIDTH and FB_H = HEIGHT, and the framebuffer of reset is not 64 by 64. -/
theorem test_construct_other_fb :
    resultOf (exec (.construct 64 64 64 64 4 .normal false .default 2) State.reset) = some (.code .geometryMismatch) ∧
    (nextOf (exec (.construct 64 64 64 64 4 .normal false .default 2) State.reset)).map State.life = some .unconstructed := by
  decide

/-- R29: the host allocates, and the bytes it then writes are at R61's addresses of the new dimensions. -/
theorem test_host_allocates :
    (nextOf (step { State.reset with turns := [.hostAllocates 64 32] })).map (fun s => (s.fbW, s.fbH, s.fb)) =
      some (64, 32, []) ∧
    (nextOf (exec (.fbwrite 1 1 0 5) (State.reset.allocateFb 64 32))).map State.fb = some [(195, 5)] := by decide

/-- R233: a frame is a whole copy of FB under the next id. -/
theorem test_show :
    (nextOf (exec .showFrame { instanceOf cfg22 with fb := (List.range 12).map fun i => (i, f4.getD i 0) })).map
      (fun s => (s.pending, s.showcnt, s.result)) = some (⟨true, 1, f4⟩, 1, .code .ok) := by decide

/-- V-CMD-3: SHOW returns 4 and publishes nothing. -/
theorem test_show_error :
    (nextOf (exec .showFrame (waiting false true false))).map (fun s => (s.showcnt, s.err, s.errflag, s.result)) =
      some (1, .ok, false, .code .deviceError) := by decide

theorem test_stopReq :
    (nextOf (exec .stopReq (waiting true false false))).map (fun s => (s.stopreq, s.pending.valid)) =
      some (true, true) := by decide

/-- V-CMD-2: nothing is written to the lines. -/
theorem test_stopAck :
    (nextOf (exec .stopAck (waiting true false true))).map
      (fun s => (s.stopreq, s.life, s.pending.valid, s.trace, s.result)) =
      some (false, .stopped, false, [], .code .ok) := by decide

/-- V-CMD-3: POLL returns 4. -/
theorem test_poll : resultOf (exec .poll (waiting false true false)) = some (.code .deviceError) := by decide

theorem test_poll_ok : resultOf (exec .poll (waiting true false false)) = some (.code .ok) := by decide

/-- R231, 20_memory.md R61: byte `3*(1*2 + 0) + 1`. -/
theorem test_fbwrite : (nextOf (exec (.fbwrite 0 1 1 200) State.reset)).map State.fb = some [(7, 200)] := by decide

theorem test_fbread : resultOf (exec (.fbread 0 1 1) { State.reset with fb := [(7, 200)] }) = some (.byte 200) := by decide

theorem test_cmdReserved6 : exec .cmdReserved6 State.reset = .refused (.reservedCommand 6) := by rfl

theorem test_cmdReserved7 : exec .cmdReserved7 State.reset = .refused (.reservedCommand 7) := by rfl

/-! ### Geometry -/

/-- V-GEOM. -/
theorem test_geom : resultOf (exec (.geom 64 32 4 .r180 true) State.reset) =
    some (.geometry ⟨64, 32, 4, .r180, true⟩) := by decide

theorem test_geom_invalid :
    resultOf (exec (.geom 64 24 4 .normal false) State.reset) = some (.code .invalidGeometry) ∧
    resultOf (exec (.geom 64 32 4 .r90 false) State.reset) = some (.code .invalidGeometry) := by decide

/-- V-MAP-3. -/
theorem test_ori : resultOf (exec (.ori 3 2) (instanceOf (panel 8 6 1 .r180 false .rgb565))) = some (.coord ⟨4, 3⟩) := by
  decide

theorem test_split : resultOf (exec (.split 4 3) (instanceOf (panel 8 6 1 .r180 false .rgb565))) =
    some (.place ⟨1, 1, 4⟩) := by decide

/-- V-MAP-2, row R90 with the mirror. -/
theorem test_map : resultOf (exec (.map 5 17) (instanceOf (panel 64 64 4 .r90 true .rgb565))) =
    some (.place ⟨10, 3, 46⟩) := by decide

/-- V-MAP-2, row R270 without the mirror. -/
theorem test_map_r270 : resultOf (exec (.map 10 40) (instanceOf (panel 64 64 4 .r270 false .rgb565))) =
    some (.place ⟨5, 3, 40⟩) := by decide

/-- R22, R236: after STOP.ack CFG is not read. -/
theorem test_ori_stopped :
    exec (.ori 3 2) { instanceOf (panel 8 6 1 .r180 false .rgb565) with life := .stopped } = .refused .noInstance := by
  rfl

/-- V-MAP-3. -/
theorem test_unmap : resultOf (exec (.unmap 1 1 4) (instanceOf (panel 8 6 1 .r180 false .rgb565))) =
    some (.coord ⟨3, 2⟩) := by decide

theorem test_unmap_r90 : resultOf (exec (.unmap 10 3 46) (instanceOf (panel 64 64 4 .r90 true .rgb565))) =
    some (.coord ⟨5, 17⟩) := by decide

/-! ### Pixel formats -/

theorem test_down : resultOf (exec (.down 100 .five) State.reset) = some (.nat 12) := by decide

theorem test_up : resultOf (exec (.up 37 .six) State.reset) = some (.nat 150) := by decide

/-- V-PACK565. -/
theorem test_pack565 : resultOf (exec (.pack565 165 90 60) State.reset) = some (.word16 0xA2C7) := by decide

theorem test_pack565_edge : resultOf (exec (.pack565 250 252 250) State.reset) = some (.word16 0xF7DE) := by decide

/-- V-UNPACK565. -/
theorem test_unpack565 : resultOf (exec (.unpack565 0xBEEF) State.reset) = some (.pixel ⟨189, 223, 123⟩) := by decide

theorem test_pack888 : resultOf (exec (.pack888 165 90 60) State.reset) = some (.bytes [165, 90, 60]) := by decide

theorem test_unpack888 : resultOf (exec (.unpack888 165 90 60) State.reset) = some (.pixel ⟨165, 90, 60⟩) := by decide

/-- V-PACK888P. -/
theorem test_pack888p : resultOf (exec (.pack888p 165 90 60) State.reset) = some (.word24 0xA55A3C) := by decide

theorem test_unpack888p : resultOf (exec (.unpack888p 0x010203) State.reset) = some (.pixel ⟨1, 2, 3⟩) := by decide

/-- V-FRAME-1. -/
theorem test_packframe_rgb565 :
    (nextOf (exec (.packframe f4) (instanceOf (panel 2 2 1 .normal false .rgb565)))).map State.pk =
      some [0x00, 0xF8, 0xE0, 0x07, 0x1F, 0x00, 0xC7, 0xA2] := by decide

/-- V-FRAME-2. -/
theorem test_packframe_rgb888 :
    (nextOf (exec (.packframe f4) (instanceOf (panel 2 2 1 .normal false .rgb888)))).map State.pk =
      some [0xFF, 0x00, 0x00, 0xA5, 0x00, 0xFF, 0x00, 0x5A, 0x00, 0x00, 0xFF, 0x3C] := by decide

/-- V-FRAME-1. -/
theorem test_unpackframe :
    (nextOf (exec (.unpackframe [0x00, 0xF8, 0xE0, 0x07, 0x1F, 0x00, 0xC7, 0xA2])
      (instanceOf (panel 2 2 1 .normal false .rgb565)))).map State.u =
      some [255, 0, 0, 0, 255, 0, 0, 0, 255, 165, 89, 58] := by decide

theorem test_unpackframe_rgb888 :
    (nextOf (exec (.unpackframe [0xFF, 0x00, 0x00, 0xA5, 0x00, 0xFF, 0x00, 0x5A, 0x00, 0x00, 0xFF, 0x3C])
      (instanceOf (panel 2 2 1 .normal false .rgb888)))).map State.u = some f4 := by decide

/-! ### Bit planes -/

/-- 165 = 10100101: bit 2 is 1; with B = 4 the plane 2 is bit 6, which is 0. -/
theorem test_bit : resultOf (exec (.bit 165 2) State.reset) = some (.bit true) ∧
    resultOf (exec (.bit 165 2) { State.reset with params := { depth := 4 } }) = some (.bit false) := by decide

/-- V-ENC-1, planes 2 and 7. -/
theorem test_encode :
    (nextOf (exec (.encode f4) (instanceOf cfg22))).map (fun s => (s.dwWord 2 1 0, s.dwWord 2 1 1, s.dwWord 7 1 1)) =
      some (0b100, 0b101, 0b001) := by decide

/-- V-ENC-3, plane 5: two lanes. -/
theorem test_encode_lanes :
    (nextOf (exec (.encode [255, 0, 0, 1, 2, 4, 0, 0, 0, 128, 64, 32, 0, 255, 0, 255, 255, 255, 0, 0, 255, 170, 85, 15])
      (instanceOf (panel 2 4 1 .normal false .rgb888Packed)))).map
        (fun s => (s.dwWord 5 0 0, s.dwWord 5 0 1, s.dwWord 5 1 0, s.dwWord 5 1 1)) =
      some (0b010001, 0b111000, 0b100000, 0b001100) := by decide

theorem test_dur : resultOf (exec (.dur 7) State.reset) = some (.nat 128) := by decide

/-- V-SCHED-6: K = 0 is plane 3 when B = 4 and the order is MSB_FIRST. -/
theorem test_planeidx :
    resultOf (exec (.planeidx 0) { State.reset with params := { depth := 4, planeOrder := .msbFirst } }) =
      some (.nat 3) := by decide

/-! ### The scheduler -/

/-- V-SCHED-1: the data write of column 1 of the step (1, 2), here as the write itself. -/
theorem test_lineWrite :
    (nextOf (exec (.lineWrite ⟨false, false, 1, 0b101⟩ 0) (running .streamingFrame 1 0 3 ⟨false, false, 1, 0⟩ false [] [.ok]))).map
      (fun s => (s.out, s.trace, s.result)) = some (⟨false, false, 1, 0b101⟩, [⟨0x0D, 0, .ok⟩], .answer .ok) := by decide

/-- R196: a failed write does not move the lines. -/
theorem test_lineWrite_fail :
    (nextOf (exec (.lineWrite ⟨false, false, 1, 0b101⟩ 0) (running .streamingFrame 1 0 3 ⟨false, false, 1, 0⟩ false [] [.fail]))).map
      (fun s => (s.out, s.trace, s.errflag)) = some (⟨false, false, 1, 0⟩, [⟨0x0D, 0, .fail⟩], false) := by decide

theorem test_schedStart : positionOf (exec .schedStart (waiting true false false)) = some (.streamingFrame, 0, 0, 0) := by
  decide

theorem test_schedStart_stop : exec .schedStart (waiting true false true) = .refused .notSelected := by rfl

/-- R199. -/
theorem test_schedTake :
    (nextOf (exec .schedTake { waiting true false false with fsm := .streamingFrame })).map
      (fun s => (s.active, s.pending.valid, s.displayed, s.u)) = some (⟨1, f4⟩, false, [1], f4) := by decide

/-- V-SCHED-7 and V-SCHED-1: the select write of the step (1, 0). -/
theorem test_schedSelect :
    (nextOf (exec .schedSelect (running .streamingFrame 1 0 0 ⟨false, false, 0, 0⟩ false [] [.ok]))).map
      (fun s => (s.phase, s.trace, s.displayed)) = some (1, [⟨0x08, 0, .ok⟩], [1]) := by decide

/-- V-ERR-1: the very first write fails. -/
theorem test_schedSelect_fail :
    (nextOf (exec .schedSelect { waiting true false false with fsm := .streamingFrame, answers := [.fail] })).map
      (fun s => (s.trace, s.displayed, s.fsm, s.err)) =
      some ([⟨0, 0, .fail⟩, ⟨0, 0, .forced⟩], [1], .idle, .deviceError) := by decide

/-- F4's last pixel is (165, 90, 60), so with B = 2 the plane 0 is bit 6: 0, 1, 0 for R, G, B, the word 010. -/
theorem test_schedData :
    (nextOf (exec .schedData (running .streamingFrame 1 0 3 ⟨true, false, 1, 4⟩ false [] [.ok]))).map
      (fun s => (s.phase, s.out, s.trace)) = some (4, ⟨false, false, 1, 0b010⟩, [⟨0x0A, 0, .ok⟩]) := by decide

theorem test_schedClock :
    (nextOf (exec .schedClock (running .streamingFrame 1 0 4 ⟨false, false, 1, 2⟩ false [] [.ok]))).map
      (fun s => (s.phase, s.out, s.trace)) = some (5, ⟨true, false, 1, 0b010⟩, [⟨0x2A, 0, .ok⟩]) := by decide

/-- V-SCHED-1. -/
theorem test_schedLatch :
    (nextOf (exec .schedLatch (running .streamingFrame 1 0 5 ⟨true, false, 1, 2⟩ false [] [.ok]))).map
      (fun s => (s.phase, s.trace)) = some (6, [⟨0x18, 0, .ok⟩]) := by decide

/-- V-SCHED-7: PHASE stays 6; the hold of K = 1 lasts 2 units. -/
theorem test_schedHold :
    (nextOf (exec .schedHold (running .streamingFrame 1 1 6 ⟨false, true, 1, 0⟩ false [] [.ok]))).map
      (fun s => (s.fsm, s.phase, s.trace)) = some (.rowAdvance, 6, [⟨0x08, 2, .ok⟩]) := by decide

/-- V-SCHED-7: the last plane of the last row goes back to row 0. -/
theorem test_schedRowadv : positionOf (exec .schedRowadv (running .rowAdvance 1 1 6 ⟨false, false, 1, 0⟩ false [] [])) =
    some (.planeAdvance, 0, 1, 6) := by decide

theorem test_schedPlaneadv : positionOf (exec .schedPlaneadv (running .planeAdvance 0 1 6 ⟨false, false, 1, 0⟩ false [] [])) =
    some (.streamingFrame, 0, 0, 0) := by decide

/-- P1's end: the stop entry forces the lines low. -/
theorem test_schedPlaneadv_stop :
    (nextOf (exec .schedPlaneadv (running .planeAdvance 0 0 6 ⟨false, false, 1, 0⟩ true [] []))).map
      (fun s => (s.fsm, s.k, s.out, s.trace)) = some (.idle, 0, Sig.allOff, [⟨0, 0, .forced⟩]) := by decide

theorem test_stopentry :
    (nextOf (exec .stopentry (running .planeAdvance 1 0 6 ⟨false, false, 1, 0⟩ true [] []))).map
      (fun s => (s.fsm, s.row, s.errflag, s.trace)) = some (.idle, 0, false, [⟨0, 0, .forced⟩]) := by decide

theorem test_trapDeverr :
    (nextOf (exec .trapDeverr (running .streamingFrame 1 0 3 ⟨true, false, 1, 4⟩ false [] []))).map
      (fun s => (s.fsm, s.errflag, s.err, s.out)) = some (.idle, true, .deviceError, Sig.allOff) := by decide

theorem test_forcesafe :
    (nextOf (exec .forcesafe (running .streamingFrame 1 0 3 ⟨true, false, 1, 4⟩ false [] []))).map
      (fun s => (s.fsm, s.phase, s.out, s.trace)) = some (.streamingFrame, 3, Sig.allOff, [⟨0, 0, .forced⟩]) := by decide

/-! ### Formats and enumerations -/

theorem test_fmtPix888 : resultOf (exec (.fmtPix888 1 2 3) State.reset) = some (.bytes [1, 2, 3]) := by decide

theorem test_fmtRgb565 : resultOf (exec (.fmtRgb565 20 22 7) State.reset) = some (.word16 0xA2C7) := by decide

theorem test_fmtRgb888 : resultOf (exec (.fmtRgb888 90) State.reset) = some (.byte 90) := by decide

theorem test_fmtRgb888packed : resultOf (exec (.fmtRgb888packed 165 90 60) State.reset) = some (.word24 0xA55A3C) := by
  decide

/-- V-ENC-3's layout `B1 G1 R1 B0 G0 R0`. -/
theorem test_fmtDw :
    resultOf (exec (.fmtDw [⟨true, false, false⟩, ⟨false, true, true⟩])
      (instanceOf (panel 2 4 1 .normal false .rgb888Packed))) = some (.nat 0b110001) := by decide

/-- V-SCHED-1: the clock write of column 1. -/
theorem test_fmtLw : resultOf (exec (.fmtLw ⟨true, false, 1, 0b101⟩) (instanceOf cfg22)) = some (.nat 0x2D) := by
  decide

/-- R97: clock to line 0, latch to 1, address to 7, data R, G, B to 2, 4, 6. -/
theorem test_fmtGpio :
    resultOf (exec (.fmtGpio ⟨true, false, 1, 0b101⟩)
      (instanceOf { cfg22 with pinout := ⟨0, 1, [7], [2, 4, 6]⟩ })) = some (.nat 0b11000101) := by decide

theorem test_enumErr : resultOf (exec (.enumErr .geometryMismatch) State.reset) = some (.nat 3) := by decide

theorem test_enumFsm : resultOf (exec (.enumFsm .planeAdvance) State.reset) = some (.nat 3) := by decide

theorem test_enumTrace :
    resultOf (exec (.enumTrace ⟨false, false, 1, 0⟩ 4 .ok) (instanceOf cfg22)) = some (.trace ⟨0x08, 4, .ok⟩) := by
  decide

/-! ### The step -/

/-- A program placed by `withFetchWord` runs at the next step from reset. -/
theorem test_step_reset : step (State.reset.withFetchWord 8 0b111) = .refused (.reservedCommand 7) := by rfl

theorem test_step_fmt : resultOf (step (State.reset.withFetchWord 16 0xA2C7)) = some (.word16 0xA2C7) := by decide

/-- R105: `fail_at(2)` is ok, fail, and ok from then on. -/
theorem test_failAt : (List.range 4).map (State.reset.failAt 2).answerAt = [.ok, .fail, .ok, .ok] := by decide

/-- R105: `stop()` from Idle. -/
theorem test_stopCall :
    (nextOf (stopCall (waiting true false false))).map (fun s => (s.life, s.stopreq, s.trace, s.result)) =
      some (.stopped, false, [], .code .ok) := by decide

/-- R207 on the first step of 95_test_vectors.md P4 (row 0, plane 0, data words 1 and 2), then a step that a failed
write cuts short. -/
theorem test_recover :
    cfg22.recover [⟨0x00, 0, .ok⟩, ⟨0x01, 0, .ok⟩, ⟨0x21, 0, .ok⟩, ⟨0x02, 0, .ok⟩, ⟨0x22, 0, .ok⟩, ⟨0x10, 0, .ok⟩,
      ⟨0x00, 1, .ok⟩, ⟨0x00, 0, .ok⟩, ⟨0x01, 0, .fail⟩, ⟨0x00, 0, .forced⟩] = [⟨0, 0, [1, 2], 1⟩] := by decide

/-- R207: a step's record is made when its hold is written (K = 1 here, so plane 1 of F4's last row). -/
theorem test_stepRecords :
    stepRecords 1 (running .streamingFrame 1 1 6 ⟨false, true, 1, 0⟩ false [.scheduler] [.ok]) =
      [⟨1, 1, [4, 1], 2⟩] := by decide

/-! ### Hypotheses that are met

`witness_<Statement>` shows a concrete state and operands that meet all hypotheses of `Obligations.<Statement>` together,
clause by clause where it has several. -/

theorem cfg22_valid : cfg22.Valid { depth := 2 } := ⟨by decide, by decide, ⟨1, rfl⟩, by decide, by decide⟩

theorem f4_size : f4.length = 3 * cfg22.npix := by decide

theorem f4_packed : f4 = cfg22.packFrame f4 := by decide

theorem f4_unpacked : f4 = cfg22.unpackFrame f4 := by decide

/-- What `running` streams comes from ACTIVE. -/
theorem running_streamed (fsm : Fsm) (row k phase : Nat) (out : Sig) (stop : Bool) (turns : List Turn)
    (answers : List Answer) : (running fsm row k phase out stop turns answers).Streamed :=
  ⟨f4_size, f4_packed, f4_unpacked, rfl, Nat.le_refl 1, Nat.le_refl 1⟩

/-- `running` at any position of the step table is a state of the invariant. -/
theorem running_inv (fsm : Fsm) (row k phase : Nat) (out : Sig) (stop : Bool) (turns : List Turn) (answers : List Answer)
    (hf : fsm ≠ .idle) (hr : row < 2) (hk : k < 2) (hp : phase ≤ 6)
    (ha : fsm = .rowAdvance ∨ fsm = .planeAdvance → phase = 6) (ho : cfg22.sigFits out = true) :
    (running fsm row k phase out stop turns answers).Inv where
  depth_pos := Nat.le_succ 1
  depth_le := (by decide : 2 ≤ 8)
  fb_wf := List.Pairwise.nil
  fb_size := by intro e he; cases he
  no_instance := fun h => absurd rfl h
  cfg_valid := fun _ => ⟨cfg22_valid, rfl, rfl⟩
  idle_position := fun h => absurd h hf
  idle_lines := fun h => absurd h hf
  row_lt := hr
  k_lt := hk
  phase_le := hp
  advance_phase := ha
  err_flag := ⟨(fun h => by cases h), (fun h => by cases h)⟩
  err_codes := .inl rfl
  err_idle := by intro h; cases h
  pending_last := by intro h; cases h
  streaming_source := fun _ => .inr (running_streamed _ _ _ _ _ _ _ _)
  pending_newer := by intro _ _ h; cases h
  out_fits := ho

/-- The step of row 1, plane 0, about to write the data of column 1. -/
def mid (stop : Bool) (turns : List Turn) (answers : List Answer) : State :=
  running .streamingFrame 1 0 3 ⟨true, false, 1, 4⟩ stop turns answers

/-- A cycle start with frame 1 displayed before. -/
def cycleStart (answers : List Answer) : State := running .streamingFrame 0 0 0 ⟨false, false, 1, 0⟩ false [] answers

theorem mid_inv (stop : Bool) (turns : List Turn) (answers : List Answer) : (mid stop turns answers).Inv :=
  running_inv _ _ _ _ _ _ _ _ (by decide) (by decide) (by decide) (by decide) (by decide) (by decide)

theorem mid_lines (stop : Bool) (turns : List Turn) (answers : List Answer) : (mid stop turns answers).LinesFollow :=
  ⟨fun _ _ => (by decide : (⟨true, false, 1, 4⟩ : Sig) = (mid false [] []).sigAt 2), by
    rintro (⟨_, h⟩ | h | h) <;> cases h⟩

theorem cycleStart_inv (answers : List Answer) : (cycleStart answers).Inv :=
  running_inv _ _ _ _ _ _ _ _ (by decide) (by decide) (by decide) (by decide) (by decide) (by decide)

theorem witness_StepKeepsTheInvariant :
    (mid false [.scheduler] [.ok]).Inv ∧ ∃ t, step (mid false [.scheduler] [.ok]) = .next t := ⟨mid_inv _ _ _, _, rfl⟩

theorem witness_StepKeepsTheLines :
    (mid false [.scheduler] [.fail]).Inv ∧ (mid false [.scheduler] [.fail]).LinesFollow ∧
      ∃ t, step (mid false [.scheduler] [.fail]) = .next t := ⟨mid_inv _ _ _, mid_lines _ _ _, _, rfl⟩

/-- A word, no word left, bytes after a word, and bytes that are no word. -/
theorem witness_StepRunsTheDecodedInstruction_host :
    let s := State.reset.withFetchWord 8 0b110
    (s.turns = .host :: [] ∧ s.stopreq = false ∧ s.program = ⟨.command, [6]⟩ :: [] ∧
      decode .command [6] = .ok (.cmdReserved6, [])) ∧
      (mid false [.host] []).turns = .host :: [] ∧ (mid false [.host] []).program = [] ∧
      decode .command [6, 1] = .ok (.cmdReserved6, 1 :: []) ∧ decode .command [8] = .error .highBits := by decide

theorem witness_StepRunsTheDecodedInstruction_scheduler :
    (mid false [.scheduler] []).turns = .scheduler :: [] ∧ (mid false [.scheduler] []).selected = some .schedData ∧
      (waiting false false false).selected = none ∧ State.reset.turns = [] := by decide

theorem witness_HostInsideStopReturnsOrWaits_host :
    let s := { waiting true false true with turns := [.host] }
    let t := mid true [.host] []
    (s.turns = .host :: [] ∧ s.life = .constructed ∧ s.stopreq = true ∧ s.fsm = .idle) ∧
      (t.turns = .host :: [] ∧ t.life = .constructed ∧ t.stopreq = true ∧ t.fsm ≠ .idle) := by decide

theorem witness_HostInsideStopReturnsOrWaits_end :
    let s := mid false [.hostEnds] []
    let t := { State.reset with turns := [.hostEnds] }
    (s.turns = .hostEnds :: [] ∧ s.life = .constructed ∧ s.stopreq = false) ∧
      (t.turns = .hostEnds :: [] ∧ t.life ≠ .constructed) := by decide

theorem witness_DecodeOfEncodeIsTheInstruction :
    encode (.construct 64 32 (-1) 0 4 .r270 true (.table ⟨5, 4, [3], [0, 1, 2]⟩) 3) ≠ none ∧
      encode (.fbread 128 127 2) = some ⟨.command, [5, 0x80, 1, 0x7F, 2]⟩ := by decide

theorem witness_EncodeOfDecodeIsTheWord :
    decode .command [5, 0x80, 1, 0x7F, 2] = .ok (.fbread 128 127 2, []) ∧
      decode .rgb565 [0xFF, 0xFF] = .ok (.fmtRgb565 31 63 31, []) := by decide

theorem witness_ReservedCodesAreRejected :
    8 ≤ (8 : Byte).toNat ∧ 8 ≤ (255 : Byte).toNat ∧ 5 ≤ (5 : Byte).toNat ∧ 4 ≤ (4 : Byte).toNat ∧
      encode (.fbread 128 127 2) = some ⟨.command, [5, 0x80] ++ [1, 0x7F, 2]⟩ ∧
      encode (.fmtRgb565 20 22 7) = some ⟨.rgb565, [0xC7] ++ [0xA2]⟩ := by decide

theorem witness_DataAndLineWordsHoldTheirFields :
    (instanceOf cfg22).life = .constructed ∧ [LaneBits.mk true true false].length = (instanceOf cfg22).cfg.mux ∧
      1 < 2 ^ (instanceOf cfg22).cfg.nAddr ∧ 7 < 2 ^ (instanceOf cfg22).cfg.ndata := by decide

/-- The default pinout and another one. -/
theorem witness_PhysicalWordRecoversTheRecord :
    let s := instanceOf cfg22
    let t := instanceOf { cfg22 with pinout := ⟨0, 1, [2], [5, 4, 3]⟩ }
    (1 < 2 ^ s.cfg.nAddr ∧ 7 < 2 ^ s.cfg.ndata ∧ s.cfg.pinoutOk (s.cfg.nlines s.params) s.cfg.pinout = true ∧
      s.cfg.pinout = s.cfg.defaultPinout) ∧
    t.life = .constructed ∧ t.cfg.pinoutOk (t.cfg.nlines t.params) t.cfg.pinout = true ∧
      t.cfg.pinout.data[2]? = some 3 ∧ t.cfg.pinout.addr[0]? = some 2 := by decide

theorem witness_EnumerationCodes :
    (instanceOf cfg22).life = .constructed ∧ 1 < 2 ^ (instanceOf cfg22).cfg.nAddr ∧
      7 < 2 ^ (instanceOf cfg22).cfg.ndata := by decide

theorem witness_GeomChecksItsOperands :
    ((0 : Int) < 1 ∧ (0 : Int) < 64 ∧ ((2 ^ 6 : Nat) : Int) ∣ 64) ∧
      ¬((0 : Int) < 64 ∧ (0 : Int) < 64 ∧ ((2 ^ 7 : Nat) : Int) ∣ 64) ∧ ¬((0 : Int) < 0) := by decide

theorem witness_OriSplitAndMapFollowTheirTables (o : Orient) :
    let s := instanceOf (panel 8 8 1 o true .rgb565)
    s.life = .constructed ∧ 7 < s.cfg.width ∧ 7 < s.cfg.height ∧ s.cfg.orient = o ∧ s.cfg.mirror = true := by
  cases o <;> decide

theorem witness_MapAndUnmapAreInverse (o : Orient) :
    let s := instanceOf (panel 4 4 1 o true .rgb565)
    s.life = .constructed ∧ s.cfg.Valid s.params ∧ 3 < s.cfg.width ∧ 3 < s.cfg.height ∧ 1 < s.cfg.nrows ∧
      1 < s.cfg.mux := by
  refine ⟨?_, ⟨?_, ?_, ?_, ?_, ?_⟩, ?_, ?_, ?_, ?_⟩ <;> cases o <;> decide

theorem witness_UpIsTheNearestIntensity :
    31 < 2 ^ FieldWidth.five.bits ∧ 2 ^ FieldWidth.five.bits ≤ 32 ∧ 63 < 2 ^ FieldWidth.six.bits := by decide

theorem witness_PackframeWritesPkByLayout (f : Format) :
    let s := instanceOf (panel 2 2 1 .normal false f)
    s.life = .constructed ∧ f4.length = 3 * s.cfg.npix ∧ s.cfg.format = f := by
  cases f <;> decide

theorem witness_UnpackframeWritesUByLayout :
    let s := instanceOf (panel 2 2 1 .normal false .rgb565)
    let t := instanceOf (panel 2 2 1 .normal false .rgb888)
    s.life = .constructed ∧ (List.replicate 8 (0 : Byte)).length = s.cfg.pkSize ∧ s.cfg.format = .rgb565 ∧
      f4.length = t.cfg.pkSize ∧ t.cfg.format = .rgb888 ∧ f4.length = (instanceOf cfg22).cfg.pkSize := by decide

theorem witness_TwentyFourBitFramesRoundTrip :
    let s := instanceOf (panel 2 2 1 .normal false .rgb888)
    s.life = .constructed ∧ f4.length = 3 * s.cfg.npix ∧ s.cfg.format = .rgb888 ∧
      cfg22.format = .rgb888Packed ∧ f4.length = 3 * cfg22.npix := by decide

theorem witness_PlaneFunctions :
    7 < State.reset.params.depth ∧ State.reset.params.depth ≤ 8 ∧ State.reset.params.planeOrder = .lsbFirst ∧
      0 < ({ depth := 1, planeOrder := .msbFirst } : BuildParams).depth := by decide

theorem witness_EncodeWritesTheBitPlanes :
    let s := instanceOf cfg22
    s.life = .constructed ∧ f4.length = 3 * s.cfg.npix ∧ 7 < s.params.depth ∧ 1 < s.cfg.nrows ∧ 1 < s.cfg.width ∧
      0 < s.cfg.mux ∧ s.cfg.unmap 1 0 1 = ⟨1, 1⟩ := by decide

theorem witness_BrightnessIsTheIntensity :
    (mid false [] []).Inv ∧ (mid false [] []).Streamed ∧ 1 < (mid false [] []).cfg.nrows ∧ 0 < (mid false [] []).cfg.mux ∧
      1 < (mid false [] []).cfg.width ∧ (mid false [] []).cfg.unmap 1 0 1 = ⟨1, 1⟩ :=
  ⟨mid_inv _ _ _, running_streamed _ _ _ _ _ _ _ _, by decide, by decide, by decide, by decide⟩

theorem witness_BlackAndWhiteFrames :
    cfg22.Valid {} ∧ ({} : BuildParams).depth ≤ 8 ∧ (∀ v ∈ List.replicate 12 (0 : Byte), v = 0) ∧
      (List.replicate 12 (255 : Byte)).length = 3 * cfg22.npix ∧ (∀ v ∈ List.replicate 12 (255 : Byte), v = 255) ∧
      (panel 2 2 1 .normal false .rgb565).Valid {} :=
  ⟨⟨by decide, by decide, ⟨1, rfl⟩, by decide, by decide⟩, by decide, by decide, by decide, by decide,
    ⟨by decide, by decide, ⟨1, rfl⟩, by decide, by decide⟩⟩

theorem witness_LineWriteFollowsTheAnswer :
    (mid false [] [.ok]).fsm = .streamingFrame ∧ 1 < 2 ^ (mid false [] [.ok]).cfg.nAddr ∧
      7 < 2 ^ (mid false [] [.ok]).cfg.ndata ∧ (mid false [] [.ok]).answers = .ok :: [] ∧
      (mid false [] [.fail]).answers = .fail :: [] := by decide

theorem witness_AnswersPastTheListAreTheOracles :
    let s := mid false [] []
    (s.answers = [] ∧ s.selected = some .schedData ∧ s.answersRest = none) ∧
      s.deviceAlwaysOk.answers = [] ∧ s.deviceAlwaysOk.answersRest = some .ok := by decide

theorem witness_StartLeavesIdle :
    let s := waiting true false false
    let t := waiting true false true
    (s.fsm = .idle ∧ s.life = .constructed ∧ s.pending.valid = true ∧ s.stopreq = false) ∧ t.fsm = .idle ∧
      t.stopreq ≠ false := by decide

/-- The cycle start that follows `waiting`. -/
def firstStart (answers : List Answer) : State :=
  { waiting true false false with fsm := .streamingFrame, answers := answers }

theorem witness_TakeAtTheCycleStart :
    let s := cycleStart []
    let t := firstStart []
    (s.fsm = .streamingFrame ∧ s.row = 0 ∧ s.k = 0 ∧ s.phase = 0 ∧ s.pending.valid = false) ∧
      (t.fsm = .streamingFrame ∧ t.row = 0 ∧ t.k = 0 ∧ t.phase = 0 ∧ t.pending.valid = true) := by decide

theorem witness_WritesFollowThePhaseTable :
    let s := fun r k p => running .streamingFrame r k p Sig.allOff false [] [.ok]
    ((s 0 1 0).fsm = .streamingFrame ∧ (s 0 1 0).answers = .ok :: [] ∧ (s 0 1 0).phase = 0 ∧
      ¬((s 0 1 0).row = 0 ∧ (s 0 1 0).k = 0)) ∧
      ((s 0 0 0).phase = 0 ∧ (s 0 0 0).row = 0 ∧ (s 0 0 0).k = 0 ∧ (exec .schedTake (s 0 0 0)) ≠ .refused .notSelected) ∧
      (1 < (s 1 0 3).cfg.width ∧ (s 1 0 3).phase = 1 + 2 * 1) ∧ (s 1 0 4).phase = 2 + 2 * 1 ∧ (s 0 0 1).phase = 1 + 2 * 0 ∧
      (s 1 0 5).phase = 2 * (s 1 0 5).cfg.width + 1 := by
  refine ⟨by decide, ⟨by decide, by decide, by decide, ?_⟩, by decide, by decide, by decide, by decide⟩
  intro h
  cases h

theorem witness_HoldCarriesTheWeight :
    let s := running .streamingFrame 1 1 6 ⟨false, true, 1, 0⟩ false [] [.ok]
    s.fsm = .streamingFrame ∧ s.phase = 2 * s.cfg.width + 2 ∧ s.answers = .ok :: [] := by decide

theorem witness_RowAdvanceMicroStep :
    let r := fun k => running .rowAdvance 1 k 6 ⟨false, false, 1, 0⟩ false [] []
    (r 1).fsm = .rowAdvance ∧ (r 1).k + 1 = (r 1).params.depth ∧ (r 0).k + 1 ≠ (r 0).params.depth := by decide

theorem witness_PlaneAdvanceMicroStep :
    let p := fun stop => running .planeAdvance 1 1 6 ⟨false, false, 1, 0⟩ stop [] []
    (p true).fsm = .planeAdvance ∧ (p true).stopreq = true ∧ (p false).stopreq = false := by decide

theorem witness_FailedWriteTakesTheErrorEntry :
    let s := mid false [] [.fail]
    let t := firstStart [.fail]
    (s.answers = .fail :: [] ∧ s.selected = some .schedData ∧ s.atCycleStart = false) ∧
      (t.answers = .fail :: [] ∧ t.selected = some .schedSelect ∧ t.atCycleStart = true) ∧
      exec .schedTake t = .next t.take := ⟨by decide, by decide, rfl⟩

theorem witness_EntriesAndForcedWrite :
    let s := running .planeAdvance 1 1 6 ⟨false, false, 1, 0⟩ true [] []
    s.fsm = .planeAdvance ∧ s.stopreq = true ∧ (mid false [] []).fsm = .streamingFrame := by decide

theorem witness_StepWritesItsTable :
    let s := running .streamingFrame 1 0 0 ⟨false, false, 0, 0⟩ false [] (List.replicate 7 .ok)
    let t := firstStart (List.replicate 7 .ok)
    (s.fsm = .streamingFrame ∧ s.phase = 0 ∧ s.DeviceOk (2 * s.cfg.width + 3) ∧ s.atCycleStart = false) ∧
      (t.fsm = .streamingFrame ∧ t.phase = 0 ∧ t.DeviceOk (2 * t.cfg.width + 3) ∧ t.atCycleStart = true ∧
        exec .schedTake t = .next t.take) := by
  unfold State.DeviceOk
  exact ⟨by decide, by decide, by decide, by decide, by decide, rfl⟩

theorem witness_CycleTotals :
    let s := cycleStart (List.replicate 28 .ok)
    s.Inv ∧ s.atCycleStart = true ∧ s.stopreq = false ∧ 4 = s.cfg.nrows * s.params.depth ∧
      s.DeviceOk (4 * (2 * s.cfg.width + 3)) := by
  unfold State.DeviceOk
  exact ⟨cycleStart_inv _, by decide, rfl, by decide, by decide⟩

theorem witness_StopIsAcknowledgedWithinOneStep :
    ((mid true [] [.fail]).Inv ∧ (mid true [] [.fail]).life = .constructed ∧ (mid true [] [.fail]).stopreq = true) ∧
      (mid false [] []).Inv ∧ (mid false [] []).life = .constructed ∧ (mid false [] []).stopreq = false :=
  ⟨⟨mid_inv _ _ _, rfl, rfl⟩, mid_inv _ _ _, rfl, rfl⟩

theorem witness_SchedulerIsFreeRunning :
    ((mid false [] []).Inv ∧ (mid false [] []).fsm = .streamingFrame) ∧
      ((running .rowAdvance 1 0 6 ⟨false, false, 1, 0⟩ true [] []).Inv) ∧
      ∀ stop, (running .planeAdvance 1 0 6 ⟨false, false, 1, 0⟩ stop [] []).Inv :=
  ⟨⟨mid_inv _ _ _, rfl⟩,
    running_inv _ _ _ _ _ _ _ _ (by decide) (by decide) (by decide) (by decide) (by decide) (by decide),
    fun _ => running_inv _ _ _ _ _ _ _ _ (by decide) (by decide) (by decide) (by decide) (by decide) (by decide)⟩

theorem witness_LineLevelsWithinACycle :
    (mid false [] [.ok]).Inv ∧ (mid false [] [.ok]).LinesFollow ∧ (mid false [] [.ok]).fsm ≠ .idle ∧
      ∃ t, microStep (mid false [] [.ok]) = .next t ∧ t.fsm ≠ .idle ∧ t.out.data ≠ (mid false [] [.ok]).out.data :=
  ⟨mid_inv _ _ _, mid_lines _ _ _, by decide, _, rfl, by decide, by decide⟩

theorem witness_SchedulerNeverSeesTheFramebuffer : ∃ t, microStep (mid false [] [.ok]) = .next t := ⟨_, rfl⟩

/-- Two states at the select of the step (1, 0) that differ in the lines, the stop request and the inputs. -/
theorem witness_StepRecordsDependOnTheFrameOnly :
    let s := running .streamingFrame 1 0 0 ⟨false, false, 0, 0⟩ false [] (List.replicate 7 .ok)
    let t := running .streamingFrame 1 0 0 ⟨false, false, 1, 0⟩ true [.host] (List.replicate 8 .ok)
    s.Inv ∧ t.Inv ∧ (s.fsm = .streamingFrame ∧ t.fsm = .streamingFrame ∧ s.phase = 0 ∧ t.phase = 0 ∧ s.row = t.row ∧
      s.k = t.k ∧ s.cfg = t.cfg ∧ s.params = t.params ∧ s.frameShown = t.frameShown) ∧
      s.DeviceOk (2 * s.cfg.width + 3) ∧ t.DeviceOk (2 * s.cfg.width + 3) := by
  unfold State.DeviceOk
  exact ⟨running_inv _ _ _ _ _ _ _ _ (by decide) (by decide) (by decide) (by decide) (by decide) (by decide),
    running_inv _ _ _ _ _ _ _ _ (by decide) (by decide) (by decide) (by decide) (by decide) (by decide),
    by decide, by decide, by decide⟩

theorem witness_DisplayedIdsNeverDecrease :
    let r := firstStart [.ok]
    let s := running .streamingFrame 0 0 0 ⟨false, false, 1, 0⟩ false [.scheduler] [.ok]
    (r.atCycleStart = true ∧ ∃ t, microStep r = .next t) ∧
      s.Inv ∧ s.fsm ≠ .idle ∧ s.Streamed ∧ s.Shows ∧ ∃ t, step s = .next t :=
  ⟨⟨by decide, _, rfl⟩,
    running_inv _ _ _ _ _ _ _ _ (by decide) (by decide) (by decide) (by decide) (by decide) (by decide),
    by decide, running_streamed _ _ _ _ _ _ _ _, rfl, _, rfl⟩

/-- A build without bounds and one with bounds that the operands just meet. -/
theorem witness_ConstructEstablishesTheInstance :
    let s := State.reset
    let b := { State.reset with params := { maxWidth := some 2, maxHeight := some 2, maxAddr := some 1 } }
    let c := cfg22
    s.life ≠ .constructed ∧ s.stopreq = false ∧ 0 < s.fbW ∧ 0 < s.fbH ∧ 2 ^ 1 ∣ s.fbH ∧ s.params.maxWidth = none ∧
      s.params.maxHeight = none ∧ s.params.maxAddr = none ∧ 2 = Format.rgb888Packed.code.toNat ∧
      c = ⟨s.fbW, s.fbH, 1, .normal, false, .rgb888Packed, c.defaultPinout⟩ ∧ c.nsig ≤ c.nlines s.params ∧
      c.pinoutOk (c.nlines s.params) ⟨0, 1, [2], [5, 4, 3]⟩ = true ∧
      b.params.maxWidth = some b.fbW ∧ b.params.maxHeight = some b.fbH ∧ b.params.maxAddr = some 1 := by decide

/-- A build whose bounds the operands just meet, with the default pinout and with a table; then a live instance. -/
theorem witness_ConstructOverANewFramebuffer :
    let s := { State.reset with
      params := { maxWidth := some 64, maxHeight := some 64, maxAddr := some 4 }, turns := [.hostAllocates 64 64] }
    let c := panel 64 64 4 .r90 true .rgb565
    let d := { c with pinout := ⟨c.pinout.lat, c.pinout.clk, c.pinout.addr, c.pinout.data⟩ }
    (∃ t, step s = .next t) ∧ (s.turns = .hostAllocates 64 64 :: [] ∧ s.life ≠ .constructed ∧ s.stopreq = false ∧ 2 ^ 4 ∣ 64 ∧
      withinBound s.params.maxWidth 64 = true ∧ withinBound s.params.maxHeight 64 = true ∧
      withinBound s.params.maxAddr 4 = true ∧ 0 = Format.rgb565.code.toNat ∧
      c = ⟨64, 64, 4, .r90, true, .rgb565, c.pinout⟩ ∧ c.pinout = c.defaultPinout ∧ c.nsig ≤ c.nlines s.params ∧
      d.pinoutOk (d.nlines s.params) d.pinout = true) ∧
      (mid false [.hostAllocates 1 1] []).turns = .hostAllocates 1 1 :: [] ∧
      (mid false [.hostAllocates 1 1] []).life = .constructed := ⟨⟨_, rfl⟩, by decide⟩

/-- One input for each clause, in their order: a width of 0, a width of 3 in a build whose bound is 2, a colorspace 3,
another framebuffer height among the operands, a geometry that is not that of the framebuffer of reset, a table that names a
line twice, and one that names line 6 of the lines 0 to 5. -/
theorem witness_ConstructErrorsInOrder :
    let b : BuildParams := { maxWidth := some 2 }
    (State.reset.life ≠ .constructed ∧ State.reset.stopreq = false ∧ State.reset.params.maxWidth = none ∧
      State.reset.params.maxHeight = none ∧ State.reset.params.maxAddr = none) ∧
    ¬(0 < (0 : Int)) ∧ (b.maxWidth = some 2 ∧ ¬((3 : Int) ≤ (2 : Nat))) ∧
      ((0 < (2 : Int) ∧ ((2 ^ 1 : Nat) : Int) ∣ 2) ∧ 3 ≤ 3) ∧ (2 < 3 ∧ ((1 : Nat) : Int) ≠ 2) ∧
      (((2 ^ 1 : Nat) : Int) ∣ 4 ∧ (State.reset.fbH : Int) ≠ 4) ∧
      (State.reset.fbW = 2 ∧ State.reset.fbH = 2) ∧
      ¬([2].length = 1 ∧ [5, 4, 4].length = 3 * (2 / 2 ^ 1) ∧ (Pinout.mk 0 1 [2] [5, 4, 4]).lines.Nodup) ∧
      6 ∈ (Pinout.mk 0 1 [2] [5, 4, 6]).lines ∧ ¬(6 < State.reset.params.nlines.getD (2 + 1 + 3 * (2 / 2 ^ 1))) := by
  decide

/-- A build without a bound, and one whose bound SHOWCNT has reached. -/
theorem witness_ShowPublishesTheFramebuffer :
    let s := mid false [] []
    let b := { s with params := { maxShowcnt := some 1 } }
    (s.life = .constructed ∧ s.stopreq = false ∧ s.errflag = false ∧ s.params.maxShowcnt = none) ∧
      b.params.maxShowcnt = some 1 ∧ 1 ≤ b.showcnt := by decide

theorem witness_LatchedErrorIsReported :
    let s := waiting false true false
    let t := waiting false true true
    (s.life = .constructed ∧ s.stopreq = false ∧ s.errflag = true) ∧ (mid false [] []).errflag = false ∧
      t.stopreq = true ∧ t.fsm = .idle ∧ t.errflag = true := by decide

theorem witness_DeviceErrorIsReportedExactlyOnce :
    let s := mid false [] [.fail]
    s.Inv ∧ s.stopreq = false ∧ s.params.maxShowcnt = none ∧ s.fsm = .streamingFrame ∧ s.answers = .fail :: [] ∧
      ∃ t, microStep s = .next t := ⟨mid_inv _ _ _, rfl, rfl, rfl, rfl, _, rfl⟩

theorem witness_StopRequestAndAcknowledge :
    let s := waiting true false true
    (mid false [] []).life = .constructed ∧ (mid false [] []).stopreq = false ∧ s.life = .constructed ∧ s.stopreq = true ∧
      s.fsm = .idle ∧ s.errflag = false := by decide

theorem witness_FramebufferAccess :
    State.reset.stopreq = false ∧ 1 < State.reset.fbW ∧ 1 < State.reset.fbH ∧ 2 ≤ 2 := by decide

theorem witness_CommandsNotEnabledAreRefused :
    State.reset.life ≠ .constructed ∧ (mid true [] []).stopreq = true ∧ (mid true [] []).fsm ≠ .idle ∧
      (mid false [] []).life = .constructed ∧ State.reset.stopreq = false ∧ State.reset.fbW ≤ 2 ∧ 2 < 3 := by decide

theorem witness_EachContextWritesItsOwnState :
    (∃ t, microStep (mid false [] [.ok]) = .next t) ∧ (encode .showFrame).isSome ∧
      ∃ t, exec .showFrame (mid false [] []) = .next t := ⟨⟨_, rfl⟩, rfl, _, rfl⟩

theorem witness_SecondShowReplacesTheFirst :
    let s := cycleStart []
    s.stopreq = false ∧ s.errflag = false ∧ s.atCycleStart = true ∧ ∃ t1 t2 t3, exec .showFrame s = .next t1 ∧
      exec .showFrame t1 = .next t2 ∧ exec .schedTake t2 = .next t3 :=
  ⟨rfl, rfl, by decide, _, _, _, rfl, rfl, rfl⟩

theorem witness_OperationsOutOfPlaceAreRefused :
    let s := instanceOf cfg22
    State.reset.life ≠ .constructed ∧ s.life = .constructed ∧ s.cfg.width ≤ 2 ∧ s.cfg.nrows ≤ 2 ∧
      ([] : List Byte).length ≠ 3 * s.cfg.npix ∧ [(0 : Byte)].length ≠ s.cfg.pkSize ∧
      ([] : List LaneBits).length ≠ s.cfg.mux ∧ 2 ^ s.cfg.nAddr ≤ 2 ∧ 2 ^ s.cfg.ndata ≤ 8 ∧
      s.selected ≠ some .schedSelect ∧ s.atCycleStart = false ∧ s.fsm ≠ .streamingFrame ∧ s.fsm ≠ .planeAdvance ∧
      (mid false [] []).stopreq = false := by decide

end Sys2Proof.Tests
end

section
/-! What one step does for each turn that can come next: equations of `State.takeTurn`, of the two agents' turns, and of
`step` (00_scope.md R11). -/

namespace Sys2Proof.Machine

variable {s : State} {t : Turn} {ts : List Turn} {p : Parcel} {rest : List Parcel}

/-! ### Whose turn it is -/

theorem State.takeTurn_of_turns_cons (h : s.turns = t :: ts) : s.takeTurn = (t, { s with turns := ts }) := by
  simp only [State.takeTurn, h]

theorem State.takeTurn_of_turns_nil (h : s.turns = []) :
    s.takeTurn = (Config.freeTurn s.freeTurns, { s with freeTurns := s.freeTurns + 1 }) := by
  simp only [State.takeTurn, h]

/-- Listing the free turn and counting it is what taking it comes to: the list of turns is empty before and after. -/
theorem State.takeTurn_list_freeTurn (h : s.turns = []) :
    { s with turns := [Config.freeTurn s.freeTurns], freeTurns := s.freeTurns + 1 : State }.takeTurn = s.takeTurn := by
  rw [takeTurn_of_turns_nil h, takeTurn_of_turns_cons rfl, ← h]

/-! ### The step as the turn of one agent -/

theorem step_of_host_turn (h : s.turns = .host :: ts) : step s = perform { s with turns := ts }.hostTurn := by
  simp only [step, State.fetch, State.takeTurn_of_turns_cons h]

theorem step_of_scheduler_turn (h : s.turns = .scheduler :: ts) : step s = microStep { s with turns := ts } := by
  simp only [step, State.fetch, State.takeTurn_of_turns_cons h, microStep]

/-- A step depends on the state through what taking the turn gives. -/
theorem step_congr_takeTurn {s' : State} (h : s.takeTurn = s'.takeTurn) : step s = step s' := by
  simp only [step, State.fetch, h]

/-! ### The scheduler's turn (43_output_scheduler.md R205) -/

theorem microStep_of_selected {i : Instr} (h : s.selected = some i) : microStep s = exec i s := by
  simp only [microStep, State.schedulerTurn, h, perform]

theorem microStep_of_selected_none (h : s.selected = none) : microStep s = .next s := by
  simp only [microStep, State.schedulerTurn, h, perform]

/-! ### The host's turn outside `stop()` -/

theorem State.hostTurn_of_no_stopreq (h : s.stopreq = false) : s.hostTurn = s.fetchCommand := by
  simp [State.hostTurn, h]

theorem perform_fetchCommand_of_program_nil (h : s.program = []) : perform s.fetchCommand = .next s := by
  simp only [State.fetchCommand, h, perform]

theorem perform_fetchCommand_of_word {i : Instr} (h : s.program = p :: rest)
    (hd : decode p.space p.bytes = .ok (i, [])) : perform s.fetchCommand = exec i { s with program := rest } := by
  simp only [State.fetchCommand, h, hd, perform]

theorem perform_fetchCommand_of_trailing_bytes {i : Instr} {b : Byte} {bs : List Byte} (h : s.program = p :: rest)
    (hd : decode p.space p.bytes = .ok (i, b :: bs)) : perform s.fetchCommand = .fault .trailingBytes := by
  simp only [State.fetchCommand, h, hd, perform]

theorem perform_fetchCommand_of_decode_error {e : DecodeError} (h : s.program = p :: rest)
    (hd : decode p.space p.bytes = .error e) : perform s.fetchCommand = .fault (.badWord e) := by
  simp only [State.fetchCommand, h, hd, perform]

/-- Outside `stop()`, the host's step is what fetching its next command comes to. -/
theorem step_of_host_command (h : s.turns = .host :: ts) (hq : s.stopreq = false) :
    step s = perform { s with turns := ts }.fetchCommand :=
  (step_of_host_turn h).trans (congrArg perform (State.hostTurn_of_no_stopreq hq))

end Sys2Proof.Machine
end

section
/-! The statement of 00_scope.md R11: what a step runs. -/

namespace Sys2Proof.Machine

/-- Settles O5: the turn is taken first, and then the step is the equation of the agent whose turn it is. -/
theorem stepRunsTheDecodedInstruction : Obligations.StepRunsTheDecodedInstruction := by
  refine fun s ts => ⟨fun hturn hstop => ?host, fun hturn => ?scheduler, fun hnil => ?free⟩
  case host =>
    have hstep := step_of_host_command hturn hstop
    exact ⟨fun hprog => hstep.trans (perform_fetchCommand_of_program_nil hprog), fun p rest hprog =>
      ⟨fun i hdec => hstep.trans (perform_fetchCommand_of_word hprog hdec),
        fun i b bs hdec => hstep.trans (perform_fetchCommand_of_trailing_bytes hprog hdec),
        fun e hdec => hstep.trans (perform_fetchCommand_of_decode_error hprog hdec)⟩⟩
  case scheduler =>
    have hstep := step_of_scheduler_turn hturn
    exact ⟨fun i hsel => hstep.trans (microStep_of_selected hsel),
      fun hsel => hstep.trans (microStep_of_selected_none hsel)⟩
  case free =>
    exact step_congr_takeTurn (State.takeTurn_list_freeTurn hnil).symm

end Sys2Proof.Machine
end

section
/-! What keeps the invariant of the block: first the changes that no conjunct of `State.Inv` reads, then the host's acts on
its mailbox, its framebuffer and its instance, each as the conjuncts it touches. -/

namespace Sys2Proof.Machine

variable {s : State}

/-! ### What the invariant does not read, and what it says beside its own conjuncts -/

/-- The invariant says nothing of the inputs still to come, of the histories, or of RESULT. -/
theorem State.Inv.of_inputs_histories_result {program turns answers answersRest freeTurns freeAnswers trace displayed result}
    (h : s.Inv) :
    State.Inv { s with program := program, turns := turns, answers := answers, answersRest := answersRest,
                       freeTurns := freeTurns, freeAnswers := freeAnswers, trace := trace, displayed := displayed,
                       result := result } :=
  { h with streaming_source := fun hf => (h.streaming_source hf).imp_right fun hst => { hst with } }

theorem State.Inv.answer (h : s.Inv) (r : Result) : (s.answer r).Inv := h.of_inputs_histories_result

/-- The scheduler runs for a live instance only. -/
theorem State.Inv.constructed_of_running (h : s.Inv) (hf : s.fsm ≠ .idle) : s.life = .constructed := by
  by_contra hl
  exact hf (h.no_instance hl).1

/-- While the scheduler runs no error is latched (60_exceptions.md R255). -/
theorem State.Inv.errflag_of_running (h : s.Inv) (hf : s.fsm ≠ .idle) : s.errflag = false := by
  by_contra he
  exact hf (h.err_idle (by simpa using he)).1

theorem State.commandEnabled_iff : s.commandEnabled = true ↔ s.life = .constructed ∧ s.stopreq = false := by
  simp [State.commandEnabled]

theorem State.constructEnabled_iff : s.constructEnabled = true ↔ s.life ≠ .constructed ∧ s.stopreq = false := by
  simp [State.constructEnabled]

/-- Every line low fits the fields of OUT. -/
theorem Cfg.sigFits_allOff (c : Cfg) : c.sigFits Sig.allOff = true := by
  simp [Cfg.sigFits, Sig.allOff]

/-! ### Commands to a live instance -/

theorem State.Inv.requestStop (h : s.Inv) (hl : s.life = .constructed) : s.requestStop.Inv :=
  { h with
    no_instance := fun hn => absurd hl hn
    streaming_source := fun hf => (h.streaming_source hf).imp_right fun hst => { hst with } }

theorem State.Inv.clearError (h : s.Inv) : s.clearError.Inv :=
  { h with
    no_instance := fun hn =>
      have ⟨hidle, hstop, _, hpend⟩ := h.no_instance hn
      ⟨hidle, hstop, rfl, hpend⟩
    err_flag := by simp
    err_codes := .inl rfl
    err_idle := by simp
    streaming_source := fun hf => (h.streaming_source hf).imp_right fun hst => { hst with } }

theorem State.Inv.reportError (h : s.Inv) : s.reportError.Inv := by
  unfold State.reportError
  split
  · exact h.clearError.answer _
  · exact h.answer _

/-- A report does not move the scheduler. -/
theorem State.reportError_fsm (s : State) : s.reportError.fsm = s.fsm := by
  unfold State.reportError
  split <;> rfl

/-- A report leaves no error latched (60_exceptions.md R259). -/
theorem State.reportError_errflag (s : State) : s.reportError.errflag = false := by
  cases he : s.errflag
  · rw [reportError_clear he]
    exact he
  · rw [reportError_set he]

theorem State.fbFrame_length (s : State) : s.fbFrame.length = 3 * s.cfg.npix := by
  simp [State.fbFrame]

/-- A published frame is newer than the one streamed, because the id of that one is at most SHOWCNT. -/
theorem State.Inv.publish (h : s.Inv) (hl : s.life = .constructed) (he : s.errflag = false) : s.publish.Inv :=
  { h with
    no_instance := fun hn => absurd hl hn
    err_idle := fun hset => nomatch he.symm.trans hset
    pending_last := fun _ => ⟨s.fbFrame_length, rfl, Nat.le_add_left 1 _⟩
    streaming_source := fun hf =>
      (h.streaming_source hf).imp (fun hstart => ⟨hstart.1, rfl⟩)
        fun hst => { hst with id_le := Nat.le_succ_of_le hst.id_le }
    pending_newer := fun hf hstart _ => by
      rcases h.streaming_source hf with htake | hst
      · exact nomatch hstart.symm.trans htake.1
      · exact Nat.lt_succ_of_le hst.id_le }

/-! ### The framebuffer -/

/-- A coordinate in range is a byte of FB (20_memory.md R61). -/
theorem fbAddr_lt {w height x y ch : Nat} (hx : x < w) (hy : y < height) (hch : ch ≤ 2) :
    fbAddr w x y ch < 3 * (w * height) := by
  have hrow : (y + 1) * w ≤ height * w := Nat.mul_le_mul_right w hy
  rw [Nat.succ_mul, Nat.mul_comm height w] at hrow
  unfold fbAddr
  omega

theorem State.Inv.setFbByte {x y ch : Nat} (h : s.Inv) (hin : s.fbInRange x y ch = true) (v : Byte) :
    (s.setFbByte (fbAddr s.fbW x y ch) v).Inv := by
  obtain ⟨⟨hx, hy⟩, hch⟩ : (x < s.fbW ∧ y < s.fbH) ∧ ch ≤ 2 := by simpa [State.fbInRange] using hin
  exact { h with
    fb_wf := Memory.write_wf h.fb_wf _ v
    fb_size := fun e he => by
      rcases Memory.mem_write he with rfl | he
      · exact fbAddr_lt hx hy hch
      · exact h.fb_size e he
    streaming_source := fun hf => (h.streaming_source hf).imp_right fun hst => { hst with } }

theorem State.Inv.allocateFb (h : s.Inv) (hl : s.life ≠ .constructed) (w height : Nat) : (s.allocateFb w height).Inv :=
  { h with
    fb_wf := Memory.nil_wf
    fb_size := by simp [State.allocateFb]
    cfg_valid := fun hc => absurd hc hl
    streaming_source := fun hf => absurd (h.no_instance hl).1 hf }

/-! ### The life of an instance -/

/-- What CONSTRUCT's checks let through is a valid configuration, if its pinout is one. -/
theorem Cfg.valid_of_constructCfg {p : BuildParams} {fbW fbH : Nat} {width height : Int} {nAddr : Nat} {orient : Orient}
    {mirror : Bool} {pin : PinoutArg} {cs : Nat} {c : Cfg}
    (h : constructCfg p fbW fbH width height nAddr orient mirror pin cs = .ok c)
    (hpin : c.pinoutOk (c.nlines p) c.pinout = true) : c.Valid p := by
  obtain ⟨hw, hh, hrows, hquarter, hcw, hch, hfbw, hfbh, hn, ho, -, -⟩ := constructCfg_ok h
  refine ⟨by omega, by omega, ?_, fun hq => ?_, hpin⟩
  · have : height.toNat = c.height := by omega
    rw [Cfg.nrows, hn, ← this]
    exact Nat.dvd_of_mod_eq_zero hrows
  · have := hquarter (ho ▸ hq)
    omega

/-- CONSTRUCT leaves OUT as it is, and before it the lines are low since the scheduler is in Idle. -/
theorem State.Inv.startInstance {c : Cfg} (h : s.Inv) (hl : s.life ≠ .constructed) (hc : c.Valid s.params)
    (hw : s.fbW = c.width) (hh : s.fbH = c.height) : (s.startInstance c).Inv := by
  have hout : s.out = Sig.allOff := h.idle_lines (h.no_instance hl).1
  exact { h with
    no_instance := fun hn => absurd rfl hn
    cfg_valid := fun _ => ⟨hc, hw, hh⟩
    idle_position := fun _ => ⟨rfl, rfl, rfl⟩
    idle_lines := fun _ => hout
    row_lt := Nat.two_pow_pos _
    k_lt := h.depth_pos
    phase_le := Nat.zero_le _
    advance_phase := by simp [State.startInstance]
    err_flag := by simp [State.startInstance]
    err_codes := .inl rfl
    err_idle := by simp [State.startInstance]
    pending_last := by simp [State.startInstance]
    streaming_source := fun hf => absurd rfl hf
    pending_newer := fun hf => absurd rfl hf
    out_fits := (congrArg c.sigFits hout).trans c.sigFits_allOff }

theorem State.Inv.endInstance (h : s.Inv) (hidle : s.fsm = .idle) (he : s.errflag = false) : s.endInstance.Inv :=
  { h with
    no_instance := fun _ => ⟨hidle, rfl, he, rfl⟩
    cfg_valid := fun hc => nomatch hc
    err_idle := fun hset => nomatch he.symm.trans hset
    pending_last := fun hv => nomatch hv
    streaming_source := fun hf => absurd hidle hf
    pending_newer := fun hf => absurd hidle hf }

/-- STOP.ack's report and the end of the instance touch different fields (44_driver_commands.md R236). -/
theorem State.endInstance_reportError (s : State) : s.endInstance.reportError = s.reportError.endInstance := by
  cases he : s.errflag
  · rw [reportError_clear he, reportError_clear (s := s.endInstance) he]
    rfl
  · rw [reportError_set he, reportError_set (s := s.endInstance) he]
    rfl

end Sys2Proof.Machine
end

section
/-! What keeps the invariant while the scheduler runs: the take, a move of the position, a line write and its two outcomes,
and the two entries into Idle (43_output_scheduler.md R198 to R204, 60_exceptions.md R256). -/

namespace Sys2Proof.Machine

variable {s : State}

/-! ### The frame a cycle shows is taken at its start -/

theorem State.atCycleStart_iff :
    s.atCycleStart = true ↔ s.fsm = .streamingFrame ∧ s.row = 0 ∧ s.k = 0 ∧ s.phase = 0 := by
  simp [State.atCycleStart, and_assoc]

/-- After a cycle's take: PK, U and DW hold what ACTIVE makes of them, and a frame that waits is newer (20_memory.md R75). -/
structure State.FrameTaken (s : State) : Prop where
  streamed : s.Streamed
  newer : s.pending.valid = true → s.active.id < s.pending.id

/-- Past a cycle's start its take has happened. -/
theorem State.Inv.frameTaken (h : s.Inv) (hf : s.fsm ≠ .idle) (hstart : s.atCycleStart = false) : s.FrameTaken :=
  ⟨(h.streaming_source hf).resolve_left fun hwait => (nomatch hstart.symm.trans hwait.1),
    h.pending_newer hf hstart⟩

theorem State.Inv.frameTaken_of_phase (h : s.Inv) (hf : s.fsm ≠ .idle) (hp : s.phase ≠ 0) : s.FrameTaken :=
  h.frameTaken hf <| Bool.eq_false_iff.2 fun hstart => hp (State.atCycleStart_iff.1 hstart).2.2.2

theorem State.Inv.frameTaken_take (h : s.Inv) (hf : s.fsm ≠ .idle) : s.take.FrameTaken := by
  cases hv : s.pending.valid
  · have hst : s.Streamed := (h.streaming_source hf).resolve_left fun hwait => by simp [hv] at hwait
    rw [State.take_empty hv]
    exact ⟨{ hst with }, fun hv' => nomatch hv.symm.trans hv'⟩
  · obtain ⟨hlen, hid, hpos⟩ := h.pending_last hv
    rw [State.take_full hv]
    exact ⟨⟨hlen, rfl, rfl, rfl, hid ▸ hpos, hid.le⟩, fun hv' => nomatch hv'⟩

theorem State.Inv.take (h : s.Inv) (hf : s.fsm ≠ .idle) : s.take.Inv := by
  have htaken := h.frameTaken_take hf
  cases hv : s.pending.valid
  · rw [State.take_empty hv]
    exact h.of_inputs_histories_result
  · rw [State.take_full hv] at htaken ⊢
    exact { h with
      no_instance := fun hn => absurd (h.constructed_of_running hf) hn
      err_idle := fun hset => nomatch (h.errflag_of_running hf).symm.trans hset
      pending_last := fun hv' => nomatch hv'
      streaming_source := fun _ => .inr htaken.streamed
      pending_newer := fun _ _ hv' => nomatch hv' }

/-! ### Into the stream, on to another position, and out of it -/

/-- SCHED.START: a frame waits, and it is taken at the cycle's start (43_output_scheduler.md R205). -/
theorem State.Inv.startStreaming (h : s.Inv) (hidle : s.fsm = .idle) (hstart : s.startEnabled = true) :
    (s.goto .streamingFrame).Inv := by
  obtain ⟨⟨hl, hv⟩, -⟩ : (s.life = .constructed ∧ s.pending.valid = true) ∧ s.stopreq = false := by
    simpa [State.startEnabled] using hstart
  have hpos : (s.goto .streamingFrame).atCycleStart = true := State.atCycleStart_iff.2 ⟨rfl, h.idle_position hidle⟩
  exact { h with
    no_instance := fun hn => absurd hl hn
    idle_position := fun hf => nomatch hf
    idle_lines := fun hf => nomatch hf
    advance_phase := by simp
    err_idle := fun hset => nomatch (h.err_idle hset).2.symm.trans hv
    streaming_source := fun _ => .inl ⟨hpos, hv⟩
    pending_newer := fun _ hcycle => nomatch hcycle.symm.trans hpos }

/-- The scheduler goes on to a position in range, the frame taken, with lines that fit. -/
theorem State.Inv.moveTo {f : Fsm} {row k phase : Nat} {sig : Sig} {answers freeAnswers trace} (h : s.Inv)
    (hf : s.fsm ≠ .idle) (htaken : s.FrameTaken) (hf' : f ≠ .idle) (hrow : row < s.cfg.nrows) (hk : k < s.params.depth)
    (hphase : phase ≤ 2 * s.cfg.width + 2)
    (hadvance : f = .rowAdvance ∨ f = .planeAdvance → phase = 2 * s.cfg.width + 2) (hsig : s.cfg.sigFits sig = true) :
    State.Inv { s with fsm := f, row := row, k := k, phase := phase, out := sig, answers := answers,
                       freeAnswers := freeAnswers, trace := trace } :=
  { h with
    no_instance := fun hn => absurd (h.constructed_of_running hf) hn
    idle_position := fun hidle => absurd hidle hf'
    idle_lines := fun hidle => absurd hidle hf'
    row_lt := hrow
    k_lt := hk
    phase_le := hphase
    advance_phase := hadvance
    err_idle := fun hset => nomatch (h.errflag_of_running hf).symm.trans hset
    streaming_source := fun _ => .inr { htaken.streamed with }
    pending_newer := fun _ _ => htaken.newer
    out_fits := hsig }

theorem State.Inv.stopEntry (h : s.Inv) (hf : s.fsm ≠ .idle) : s.stopEntry.Inv :=
  { h with
    no_instance := fun hn => absurd (h.constructed_of_running hf) hn
    idle_position := fun _ => ⟨rfl, rfl, rfl⟩
    idle_lines := fun _ => rfl
    row_lt := Nat.two_pow_pos _
    k_lt := h.depth_pos
    phase_le := Nat.zero_le _
    advance_phase := by simp [State.stopEntry]
    err_idle := fun hset => nomatch (h.errflag_of_running hf).symm.trans hset
    pending_last := fun hv => nomatch hv
    streaming_source := fun hrun => absurd rfl hrun
    pending_newer := fun hrun => absurd rfl hrun
    out_fits := s.cfg.sigFits_allOff }

/-- The DeviceError entry is the stop entry with the error latched (60_exceptions.md R256). -/
theorem State.deviceErrorEntry_eq_latchError_stopEntry (s : State) : s.deviceErrorEntry = s.stopEntry.latchError := rfl

theorem State.Inv.latchError (h : s.Inv) (hl : s.life = .constructed) (hidle : s.fsm = .idle)
    (hv : s.pending.valid = false) : s.latchError.Inv :=
  { h with
    no_instance := fun hn => absurd hl hn
    err_flag := by simp
    err_codes := .inr rfl
    err_idle := fun _ => ⟨hidle, hv⟩
    streaming_source := fun hf => absurd hidle hf }

theorem State.Inv.deviceErrorEntry (h : s.Inv) (hf : s.fsm ≠ .idle) : s.deviceErrorEntry.Inv := by
  rw [State.deviceErrorEntry_eq_latchError_stopEntry]
  exact (h.stopEntry hf).latchError (h.constructed_of_running hf) rfl rfl

/-! ### Line writes -/

/-- Every data word fits the DATA field (30_encoding.md R95). -/
theorem Cfg.encodeFrame_lt {c : Cfg} {b w : Nat} {u : List Byte} (h : w ∈ c.encodeFrame b u) : w < 2 ^ c.ndata := by
  simp only [Cfg.encodeFrame, List.mem_flatMap, List.mem_map] at h
  obtain ⟨i, -, a, -, x, -, rfl⟩ := h
  exact orBits_lt _ _

theorem State.Streamed.dwWord_lt (h : s.Streamed) (i a c : Nat) : s.dwWord i a c < 2 ^ s.cfg.ndata := by
  unfold State.dwWord
  rw [List.getD_eq_getElem?_getD, h.planes]
  cases hw : (s.cfg.encodeFrame s.params.depth s.u)[s.cfg.dwIndex i a c]? with
  | none => exact Nat.two_pow_pos _
  | some w => exact Cfg.encodeFrame_lt (List.mem_of_getElem? hw)

/-- A record at the scheduler's row fits if its data does. -/
theorem State.Inv.sigFits_row (h : s.Inv) (clk lat : Bool) {d : Nat} (hd : d < 2 ^ s.cfg.ndata) :
    s.cfg.sigFits ⟨clk, lat, s.row, d⟩ = true := by
  have hrow : s.row < 2 ^ s.cfg.nAddr := h.row_lt
  simp [Cfg.sigFits, hrow, hd]

/-- A line write keeps the invariant if going on from the driven lines does. -/
theorem State.Inv.writeOrTrap {sig : Sig} {dur : Nat} {f : State → State} (h : s.Inv) (hf : s.fsm ≠ .idle)
    (hok : ∀ as n tr, State.Inv (f { s with answers := as, freeAnswers := n, out := sig, trace := tr })) :
    (s.writeOrTrap sig dur f).Inv := by
  obtain ⟨as, n, hw | hw⟩ := s.writeOrTrap_cases sig dur f
  · rw [hw]
    exact hok _ _ _
  · rw [hw]
    exact h.of_inputs_histories_result.deviceErrorEntry hf

/-- A write inside a step, which goes on to the next phase. -/
theorem State.Inv.writeOrTrap_nextPhase {sig : Sig} (h : s.Inv) (hf : s.fsm = .streamingFrame) (htaken : s.FrameTaken)
    (hp : s.phase < 2 * s.cfg.width + 2) (hsig : s.cfg.sigFits sig = true) (dur : Nat) :
    (s.writeOrTrap sig dur State.nextPhase).Inv := by
  have hrun : s.fsm ≠ .idle := by simp [hf]
  exact h.writeOrTrap hrun fun _ _ _ => h.moveTo hrun htaken hrun h.row_lt h.k_lt hp (by simp [hf]) hsig

end Sys2Proof.Machine
end

section
/-! Every step keeps the invariant of the block: each host command, each micro-step, and then the step. -/

namespace Sys2Proof.Machine

variable {s t : State}

/-! ### Host commands -/

theorem execConstruct_keeps_inv {fbW fbH : Nat} {width height : Int} {nAddr : Nat} {orient : Orient} {mirror : Bool}
    {pin : PinoutArg} {cs : Nat} (h : s.Inv)
    (ht : execConstruct fbW fbH width height nAddr orient mirror pin cs s = .next t) : t.Inv := by
  unfold execConstruct at ht
  split at ht
  · cases ht
  · rename_i hen
    have hl : s.life ≠ .constructed := (State.constructEnabled_iff.1 (by simpa using hen)).1
    split at ht
    · cases ht
      exact h.answer _
    · rename_i c hc
      split at ht
      · cases ht
        exact h.answer _
      · rename_i hsize
        obtain ⟨hpin, rfl⟩ := guarded_next ht
        obtain ⟨hw, hh⟩ : s.fbW = c.width ∧ s.fbH = c.height := by simpa [State.fbSized] using hsize
        exact (h.startInstance hl (Cfg.valid_of_constructCfg hc hpin) hw hh).answer _

theorem execShow_keeps_inv (h : s.Inv) (ht : execShow s = .next t) : t.Inv := by
  unfold execShow at ht
  split at ht
  · cases ht
  · rename_i hen
    have hl : s.life = .constructed := (State.commandEnabled_iff.1 (by simpa using hen)).1
    split at ht
    · cases ht
      exact h.reportError
    · rename_i he
      obtain ⟨-, rfl⟩ := guarded_next ht
      exact (h.publish hl (by simpa using he)).answer _

theorem execStopReq_keeps_inv (h : s.Inv) (ht : execStopReq s = .next t) : t.Inv := by
  obtain ⟨hen, rfl⟩ := guarded_next ht
  exact (h.requestStop (State.commandEnabled_iff.1 hen).1).answer _

theorem execStopAck_keeps_inv (h : s.Inv) (ht : execStopAck s = .next t) : t.Inv := by
  obtain ⟨hen, rfl⟩ := guarded_next ht
  obtain ⟨-, hidle⟩ : (s.life = .constructed ∧ s.stopreq = true) ∧ s.fsm = .idle := by
    simpa [State.ackEnabled] using hen
  rw [State.endInstance_reportError]
  exact h.reportError.endInstance (s.reportError_fsm.trans hidle) s.reportError_errflag

theorem execPoll_keeps_inv (h : s.Inv) (ht : execPoll s = .next t) : t.Inv := by
  obtain ⟨-, rfl⟩ := guarded_next ht
  exact h.reportError

theorem execFbwrite_keeps_inv {x y ch : Nat} {v : Byte} (h : s.Inv) (ht : execFbwrite x y ch v s = .next t) : t.Inv := by
  unfold execFbwrite at ht
  split at ht
  · cases ht
  · obtain ⟨hin, rfl⟩ := guarded_next ht
    exact (h.setFbByte hin v).answer _

theorem execFbread_keeps_inv {x y ch : Nat} (h : s.Inv) (ht : execFbread x y ch s = .next t) : t.Inv := by
  unfold execFbread at ht
  split at ht
  · cases ht
  · obtain ⟨-, rfl⟩ := guarded_next ht
    exact h.answer _

/-- Whatever has a word of its own, and so can stand in the host's program, keeps the invariant. The other operations do
not all: PACKFRAME of an arbitrary frame would part PK from ACTIVE. -/
theorem exec_keeps_inv_of_encode {i : Instr} (hi : (encode i).isSome) (h : s.Inv) (ht : exec i s = .next t) : t.Inv := by
  cases i
  case construct => exact execConstruct_keeps_inv h ht
  case showFrame => exact execShow_keeps_inv h ht
  case stopReq => exact execStopReq_keeps_inv h ht
  case poll => exact execPoll_keeps_inv h ht
  case fbwrite => exact execFbwrite_keeps_inv h ht
  case fbread => exact execFbread_keeps_inv h ht
  case cmdReserved6 => cases ht
  case cmdReserved7 => cases ht
  case fmtPix888 | fmtRgb565 | fmtRgb888 | fmtRgb888packed | enumErr | enumFsm =>
    cases ht
    exact h.answer _
  all_goals cases hi

/-! ### Micro-steps -/

theorem execSchedStart_keeps_inv (h : s.Inv) (ht : execSchedStart s = .next t) : t.Inv := by
  obtain ⟨hsel, rfl⟩ := guarded_next ht
  obtain ⟨hidle, hstart⟩ := State.selects_schedStart.1 hsel
  exact h.startStreaming hidle hstart

theorem execSchedSelect_keeps_inv (h : s.Inv) (ht : execSchedSelect s = .next t) : t.Inv := by
  obtain ⟨hsel, rfl⟩ := guarded_next ht
  obtain ⟨hf, hp⟩ := State.selects_schedSelect.1 hsel
  have hrun : s.fsm ≠ .idle := by simp [hf]
  have hsig := h.sigFits_row false false (Nat.two_pow_pos _)
  split
  · obtain ⟨-, -, -, hphase, hfsm, hcfg, -⟩ := s.take_kept
    exact (h.take hrun).writeOrTrap_nextPhase (hfsm.trans hf) (h.frameTaken_take hrun) (by omega) (hcfg ▸ hsig) _
  · rename_i hstart
    exact h.writeOrTrap_nextPhase hf (h.frameTaken hrun (by simpa using hstart)) (by omega) hsig _

/-- A write that goes on to the next phase, past the select. -/
theorem State.Inv.writeOrTrap_past_select (h : s.Inv) (hf : s.fsm = .streamingFrame) (hp : s.phase ≠ 0)
    (hp' : s.phase < 2 * s.cfg.width + 2) (clk lat : Bool) {d : Nat} (hd : s.FrameTaken → d < 2 ^ s.cfg.ndata)
    (dur : Nat) : (s.writeOrTrap ⟨clk, lat, s.row, d⟩ dur State.nextPhase).Inv :=
  have htaken := h.frameTaken_of_phase (by simp [hf]) hp
  h.writeOrTrap_nextPhase hf htaken hp' (h.sigFits_row clk lat (hd htaken)) dur

theorem execSchedData_keeps_inv (h : s.Inv) (ht : execSchedData s = .next t) : t.Inv := by
  obtain ⟨hsel, rfl⟩ := guarded_next ht
  obtain ⟨hf, hlt, hodd⟩ := State.selects_schedData.1 hsel
  exact h.writeOrTrap_past_select hf (by omega) (by omega) _ _ (fun htaken => htaken.streamed.dwWord_lt _ _ _) _

theorem execSchedClock_keeps_inv (h : s.Inv) (ht : execSchedClock s = .next t) : t.Inv := by
  obtain ⟨hsel, rfl⟩ := guarded_next ht
  obtain ⟨hf, hlt, -, hp⟩ := State.selects_schedClock.1 hsel
  exact h.writeOrTrap_past_select hf hp (by omega) _ _ (fun htaken => htaken.streamed.dwWord_lt _ _ _) _

theorem execSchedLatch_keeps_inv (h : s.Inv) (ht : execSchedLatch s = .next t) : t.Inv := by
  obtain ⟨hsel, rfl⟩ := guarded_next ht
  obtain ⟨hf, hp⟩ := State.selects_schedLatch.1 hsel
  exact h.writeOrTrap_past_select hf (by omega) (by omega) _ _ (fun _ => Nat.two_pow_pos _) _

theorem execSchedHold_keeps_inv (h : s.Inv) (ht : execSchedHold s = .next t) : t.Inv := by
  obtain ⟨hsel, rfl⟩ := guarded_next ht
  obtain ⟨hf, hp⟩ := State.selects_schedHold.1 hsel
  have hrun : s.fsm ≠ .idle := by simp [hf]
  have htaken := h.frameTaken_of_phase hrun (by omega)
  exact h.writeOrTrap hrun fun _ _ _ =>
    h.moveTo hrun htaken (by simp) h.row_lt h.k_lt hp.le (fun _ => hp) (h.sigFits_row _ _ (Nat.two_pow_pos _))

/-- In the advance states the cycle is past its start. -/
theorem State.Inv.frameTaken_of_advance (h : s.Inv) (hf : s.fsm = .rowAdvance ∨ s.fsm = .planeAdvance) : s.FrameTaken :=
  h.frameTaken_of_phase (by rcases hf with hf | hf <;> simp [hf]) (by have := h.advance_phase hf; omega)

theorem execSchedRowadv_keeps_inv (h : s.Inv) (ht : execSchedRowadv s = .next t) : t.Inv := by
  obtain ⟨hsel, rfl⟩ := guarded_next ht
  have hf := State.selects_schedRowadv.1 hsel
  have hrow : (if s.k + 1 = s.params.depth then (s.row + 1) % s.cfg.nrows else s.row) < s.cfg.nrows := by
    split
    · exact Nat.mod_lt _ (Nat.two_pow_pos _)
    · exact h.row_lt
  exact h.moveTo (by simp [hf]) (h.frameTaken_of_advance (.inl hf)) (by simp) hrow h.k_lt h.phase_le
    (fun _ => h.advance_phase (.inl hf)) h.out_fits

theorem execSchedPlaneadv_keeps_inv (h : s.Inv) (ht : execSchedPlaneadv s = .next t) : t.Inv := by
  obtain ⟨hsel, rfl⟩ := guarded_next ht
  have hf := State.selects_schedPlaneadv.1 hsel
  have hrun : s.fsm ≠ .idle := by simp [hf]
  split
  · exact h.stopEntry hrun
  · exact h.moveTo hrun (h.frameTaken_of_advance (.inr hf)) (by simp) h.row_lt (Nat.mod_lt _ h.depth_pos)
      (Nat.zero_le _) (by simp) h.out_fits

theorem microStep_keeps_inv (h : s.Inv) (ht : microStep s = .next t) : t.Inv := by
  cases hsel : s.selected with
  | none =>
    rw [microStep_of_selected_none hsel] at ht
    cases ht
    exact h
  | some i =>
    rw [microStep_of_selected hsel] at ht
    rcases State.selected_cases hsel with rfl | rfl | rfl | rfl | rfl | rfl | rfl | rfl
    · exact execSchedStart_keeps_inv h ht
    · exact execSchedSelect_keeps_inv h ht
    · exact execSchedData_keeps_inv h ht
    · exact execSchedClock_keeps_inv h ht
    · exact execSchedLatch_keeps_inv h ht
    · exact execSchedHold_keeps_inv h ht
    · exact execSchedRowadv_keeps_inv h ht
    · exact execSchedPlaneadv_keeps_inv h ht

/-! ### The step -/

/-- Settles O3: whoever moves, taking the turn leaves the invariant as it is, and what the turn comes to keeps it. -/
theorem stepKeepsTheInvariant : Obligations.StepKeepsTheInvariant := by
  intro s t h ht
  obtain ⟨ts, n, hmicro | ⟨i, p, rest, -, -, hdec, hexec⟩ | hack | hreq | (rfl | rfl) | ⟨hen, w, height, rfl⟩⟩ :=
    step_cases ht
  · exact microStep_keeps_inv h.of_inputs_histories_result hmicro
  · exact exec_keeps_inv_of_encode (decode_coded hdec) h.of_inputs_histories_result hexec
  · exact execStopAck_keeps_inv h.of_inputs_histories_result hack
  · exact execStopReq_keeps_inv h.of_inputs_histories_result hreq
  · exact h.of_inputs_histories_result
  · exact h.of_inputs_histories_result
  · have hturn : State.Inv { s with turns := ts, freeTurns := n } := h.of_inputs_histories_result
    exact hturn.allocateFb (State.constructEnabled_iff.1 hen).1 w height

end Sys2Proof.Machine
end

section
/-! Reset: the values of 10_state.md R36, and the invariants there. -/

namespace Sys2Proof.Machine

/-- Settles O1: each is the value `State.reset` writes. -/
theorem resetIsTheStateBeforeConstruction : Obligations.ResetIsTheStateBeforeConstruction :=
  ⟨rfl, rfl, rfl, rfl, rfl, rfl, rfl, rfl, rfl, rfl, rfl, rfl, rfl⟩

theorem State.reset_inv : State.reset.Inv where
  depth_pos := by decide
  depth_le := by decide
  fb_wf := State.reset_fb_wf
  fb_size := fun e he => nomatch he
  no_instance := fun _ => ⟨rfl, rfl, rfl, rfl⟩
  cfg_valid := fun hl => nomatch hl
  idle_position := fun _ => ⟨rfl, rfl, rfl⟩
  idle_lines := fun _ => rfl
  row_lt := by decide
  k_lt := by decide
  phase_le := by decide
  advance_phase := by simp [State.reset]
  err_flag := by simp [State.reset]
  err_codes := .inl rfl
  err_idle := fun he => nomatch he
  pending_last := fun hv => nomatch hv
  streaming_source := fun hf => absurd rfl hf
  pending_newer := fun hf => absurd rfl hf
  out_fits := Cfg.sigFits_allOff _

/-- In Idle nothing is asked of the lines. -/
theorem State.linesFollow_of_idle {s : State} (hidle : s.fsm = .idle) : s.LinesFollow where
  within := by simp [hidle]
  between := by simp [hidle]

/-- Settles O2: no instance exists and the scheduler is in Idle, so what is left to see is that position 0 is in range. -/
theorem resetMeetsTheInvariants : Obligations.ResetMeetsTheInvariants :=
  ⟨State.reset_inv, State.linesFollow_of_idle rfl⟩

end Sys2Proof.Machine
end

section
/-! What has no meaning in a state is refused by name (10_state.md R22, 30_encoding.md R102; logs 18, 19). -/

namespace Sys2Proof.Machine

variable {s t : State} {ok : Bool}

/-! ### Operations that read CFG -/

theorem withInstance_of_no_instance (hl : s.life ≠ .constructed) : s.withInstance ok t = .refused .noInstance :=
  if_neg hl

theorem withInstance_of_bad_operand (hl : s.life = .constructed) (hok : ok = false) :
    s.withInstance ok t = .refused .badOperand := by
  simp [State.withInstance, hl, hok]

/-! ### The operand checks, failed -/

theorem State.coordInRange_eq_false {x y : Nat} (h : s.cfg.width ≤ x ∨ s.cfg.height ≤ y) :
    s.coordInRange x y = false := by
  simp only [State.coordInRange, Bool.and_eq_false_iff, decide_eq_false_iff_not]
  omega

theorem State.placeInRange_eq_false {a l c : Nat} (h : s.cfg.nrows ≤ a ∨ s.cfg.mux ≤ l ∨ s.cfg.width ≤ c) :
    s.placeInRange a l c = false := by
  simp only [State.placeInRange, Bool.and_eq_false_iff, decide_eq_false_iff_not]
  omega

theorem Cfg.sigFits_eq_false {c : Cfg} {sig : Sig} (h : 2 ^ c.nAddr ≤ sig.addr ∨ 2 ^ c.ndata ≤ sig.data) :
    c.sigFits sig = false := by
  simp only [Cfg.sigFits, Bool.and_eq_false_iff, decide_eq_false_iff_not]
  omega

/-! ### Micro-steps and their parts -/

theorem guarded_of_false {why : Refusal} (hok : ok = false) : guarded ok why t = .refused why := by
  rw [hok, guarded_false]

theorem State.selects_eq_false {i : Instr} (h : s.selected ≠ some i) : s.selects i = false :=
  Bool.eq_false_iff.2 (mt State.selects_iff.1 h)

theorem State.atStopEntry_eq_false (h : s.fsm ≠ .planeAdvance ∨ s.stopreq = false) : s.atStopEntry = false := by
  rcases h with h | h <;> simp [State.atStopEntry, h]

/-- Each micro-step is guarded by the selection of itself. -/
theorem exec_of_not_selected {i : Instr}
    (hi : i = .schedStart ∨ i = .schedSelect ∨ i = .schedData ∨ i = .schedClock ∨ i = .schedLatch ∨
      i = .schedHold ∨ i = .schedRowadv ∨ i = .schedPlaneadv) (hsel : s.selected ≠ some i) : exec i s = .refused .notSelected := by
  have hfalse := State.selects_eq_false hsel
  rcases hi with rfl | rfl | rfl | rfl | rfl | rfl | rfl | rfl <;> exact guarded_of_false hfalse

/-- Settles O60: every operation named here is behind `State.withInstance` or `guarded`, and its check fails. -/
theorem operationsOutOfPlaceAreRefused : Obligations.OperationsOutOfPlaceAreRefused := by
  intro s
  refine ⟨fun hl x y a l c frame sig dur st lanes => ?no_instance, fun hl => ⟨fun x y hxy => ?coordinate,
    fun a l c hplace => ?place, fun buf hlen => ?frame, fun buf hlen => ?packed, fun lanes hlen => ?lanes,
    fun sig dur st hsig => ?record⟩, fun i hi hsel => exec_of_not_selected hi hsel,
    fun hstart => guarded_of_false hstart, fun hf sig dur => ?part, fun hstop => ?stop_entry⟩
  case no_instance =>
    have hrefuse {ok t} : s.withInstance ok t = .refused .noInstance := withInstance_of_no_instance hl
    exact ⟨hrefuse, hrefuse, hrefuse, hrefuse, hrefuse, hrefuse, hrefuse, hrefuse, hrefuse, hrefuse, hrefuse⟩
  case coordinate =>
    have hbad {t} := withInstance_of_bad_operand (t := t) hl (State.coordInRange_eq_false hxy)
    exact ⟨hbad, hbad, hbad⟩
  case place => exact withInstance_of_bad_operand hl (State.placeInRange_eq_false hplace)
  case frame =>
    have hbad {t} := withInstance_of_bad_operand (t := t) hl (decide_eq_false hlen)
    exact ⟨hbad, hbad⟩
  case packed => exact withInstance_of_bad_operand hl (decide_eq_false hlen)
  case lanes => exact withInstance_of_bad_operand hl (decide_eq_false hlen)
  case record =>
    have hbad {t} := withInstance_of_bad_operand (t := t) hl (Cfg.sigFits_eq_false hsig)
    exact ⟨hbad, hbad, hbad⟩
  case part => exact ⟨if_neg hf, guarded_of_false (decide_eq_false hf)⟩
  case stop_entry =>
    have hfalse := State.atStopEntry_eq_false hstop
    exact ⟨guarded_of_false hfalse, fun hf => guarded_of_false (by simp [hf, hfalse])⟩

end Sys2Proof.Machine
end

section
/-! The scheduler and FB (20_memory.md R69, R78): every micro-step commutes with exchanging the framebuffer for another. -/

namespace Sys2Proof.Machine

variable (s : State) (fb : Memory) (w h gen : Nat)

/-- The same state over another framebuffer: its contents, its dimensions and its generation. -/
def State.withFb : State := { s with fb := fb, fbW := w, fbH := h, fbGen := gen }

/-- An update that neither reads nor writes FB. -/
def IgnoresFb (f : State → State) : Prop :=
  ∀ s fb w h gen, f (s.withFb fb w h gen) = (f s).withFb fb w h gen

/-- The guard looks at its condition only, so an update of the guarded state shows in the next state. -/
theorem guarded_next_map {ok : Bool} {why : Refusal} {t t' : State} (f : State → State)
    (ht : guarded ok why t = .next t') : guarded ok why (f t) = .next (f t') := by
  obtain ⟨rfl, rfl⟩ := guarded_next ht
  rfl

/-! ### The parts of a micro-step -/

theorem State.takeAnswer_withFb :
    (s.withFb fb w h gen).takeAnswer = (s.takeAnswer.1, s.takeAnswer.2.withFb fb w h gen) := by
  rcases hs : s.answers with - | ⟨a, as⟩
  · cases hr : s.answersRest <;> simp [State.takeAnswer, State.withFb, hs, hr]
  · rw [State.takeAnswer_of hs, State.takeAnswer_of (s := s.withFb fb w h gen) hs]
    rfl

theorem State.writeOrTrap_withFb (sig : Sig) (dur : Nat) {f : State → State} (hf : IgnoresFb f) :
    (s.withFb fb w h gen).writeOrTrap sig dur f = (s.writeOrTrap sig dur f).withFb fb w h gen := by
  unfold State.writeOrTrap State.lineWrite
  rw [State.takeAnswer_withFb]
  rcases s.takeAnswer with ⟨_ | _, s'⟩
  · exact hf ((s'.drive sig).logLine (s'.cfg.lineWord sig) dur .ok) fb w h gen
  · rfl

theorem ignoresFb_take : IgnoresFb State.take := by
  intro s fb w h gen
  cases hv : s.pending.valid
  · rw [State.take_empty hv, State.take_empty (s := s.withFb fb w h gen) hv]
    rfl
  · rw [State.take_full hv, State.take_full (s := s.withFb fb w h gen) hv]
    rfl

theorem ignoresFb_nextPhase : IgnoresFb State.nextPhase := fun _ _ _ _ _ => rfl

theorem ignoresFb_goto (f : Fsm) : IgnoresFb fun s => s.goto f := fun _ _ _ _ _ => rfl

/-! ### The micro-steps -/

variable {s} {t : State} {fb w h gen}

/-- A guarded line write, whose guard, record and duration do not depend on FB. -/
theorem guarded_writeOrTrap_withFb {ok : Bool} {why : Refusal} {sig : Sig} {dur : Nat} {f : State → State}
    (hf : IgnoresFb f) (ht : guarded ok why (s.writeOrTrap sig dur f) = .next t) :
    guarded ok why ((s.withFb fb w h gen).writeOrTrap sig dur f) = .next (t.withFb fb w h gen) := by
  rw [State.writeOrTrap_withFb s fb w h gen sig dur hf]
  exact guarded_next_map (State.withFb · fb w h gen) ht

theorem execSchedSelect_withFb (ht : execSchedSelect s = .next t) :
    execSchedSelect (s.withFb fb w h gen) = .next (t.withFb fb w h gen) := by
  have htake : (if s.atCycleStart then (s.withFb fb w h gen).take else s.withFb fb w h gen) =
      (if s.atCycleStart then s.take else s).withFb fb w h gen := by
    rw [ignoresFb_take, apply_ite (State.withFb · fb w h gen)]
  have hwrite := guarded_writeOrTrap_withFb (fb := fb) (w := w) (h := h) (gen := gen) ignoresFb_nextPhase ht
  rw [← htake] at hwrite
  exact hwrite

theorem execSchedPlaneadv_withFb (ht : execSchedPlaneadv s = .next t) :
    execSchedPlaneadv (s.withFb fb w h gen) = .next (t.withFb fb w h gen) := by
  have hnext := guarded_next_map (State.withFb · fb w h gen) ht
  rw [apply_ite (State.withFb · fb w h gen)] at hnext
  exact hnext

theorem microStep_withFb (ht : microStep s = .next t) :
    microStep (s.withFb fb w h gen) = .next (t.withFb fb w h gen) := by
  cases hsel : s.selected with
  | none =>
    rw [microStep_of_selected_none hsel] at ht
    cases ht
    exact microStep_of_selected_none hsel
  | some i =>
    rw [microStep_of_selected hsel] at ht
    rw [microStep_of_selected (s := s.withFb fb w h gen) hsel]
    rcases State.selected_cases hsel with rfl | rfl | rfl | rfl | rfl | rfl | rfl | rfl
    · exact guarded_next_map (State.withFb · fb w h gen) ht
    · exact execSchedSelect_withFb ht
    · exact guarded_writeOrTrap_withFb ignoresFb_nextPhase ht
    · exact guarded_writeOrTrap_withFb ignoresFb_nextPhase ht
    · exact guarded_writeOrTrap_withFb ignoresFb_nextPhase ht
    · exact guarded_writeOrTrap_withFb (ignoresFb_goto .rowAdvance) ht
    · exact guarded_next_map (State.withFb · fb w h gen) ht
    · exact execSchedPlaneadv_withFb ht

/-- Settles O46: the obligation exchanges the framebuffer before and after the micro-step, which is `microStep_withFb`. -/
theorem schedulerNeverSeesTheFramebuffer : Obligations.SchedulerNeverSeesTheFramebuffer :=
  fun _ _ _ _ _ _ ht => microStep_withFb ht

end Sys2Proof.Machine
end

section
/-! What is displayed (20_memory.md R75, 43_output_scheduler.md R199): ACTIVE and DISPLAYED change at SCHED.TAKE only, and the
frame taken there is no older than the one displayed before. -/

namespace Sys2Proof.Machine

variable {s t : State}

/-- ACTIVE and the ids displayed so far are the same. -/
def State.SameDisplay (s t : State) : Prop := t.displayed = s.displayed ∧ t.active = s.active

theorem State.Shows.of_sameDisplay (h : s.Shows) (hst : s.SameDisplay t) : t.Shows := by
  obtain ⟨hdisplayed, hactive⟩ := hst
  rw [State.Shows, hdisplayed, hactive]
  exact h

/-- The state a guard lets through shows what it showed before the guard. -/
theorem sameDisplay_of_guarded {ok : Bool} {why : Refusal} {t' : State} (ht : guarded ok why t' = .next t)
    (hkept : s.SameDisplay t') : s.SameDisplay t := by
  obtain ⟨-, rfl⟩ := guarded_next ht
  exact hkept

/-! ### The take -/

theorem State.take_displayed (s : State) : s.take.displayed = s.displayed ++ [s.take.active.id] := by
  cases hv : s.pending.valid
  · rw [State.take_empty hv]
  · rw [State.take_full hv]

theorem State.take_shows (s : State) : s.take.Shows := by
  rw [State.Shows, State.take_displayed]
  exact List.getLast?_concat

/-- The waiting frame is the last one published, and the one streamed was published too. -/
theorem State.Inv.active_id_le_take (h : s.Inv) (hst : s.Streamed) : s.active.id ≤ s.take.active.id := by
  cases hv : s.pending.valid
  · rw [State.take_empty hv]
  · rw [State.take_full hv]
    obtain ⟨-, hid, -⟩ := h.pending_last hv
    exact hst.id_le.trans hid.ge

/-! ### Micro-steps -/

theorem State.sameDisplay_writeOrTrap {f : State → State} (hf : ∀ s : State, s.SameDisplay (f s)) (s : State) (sig : Sig)
    (dur : Nat) : s.SameDisplay (s.writeOrTrap sig dur f) := by
  obtain ⟨as, n, hw | hw⟩ := s.writeOrTrap_cases sig dur f
  · rw [hw]
    exact hf _
  · rw [hw]
    exact ⟨rfl, rfl⟩

theorem State.sameDisplay_nextPhase (s : State) : s.SameDisplay s.nextPhase := ⟨rfl, rfl⟩

theorem State.sameDisplay_goto (f : Fsm) (s : State) : s.SameDisplay (s.goto f) := ⟨rfl, rfl⟩

theorem execSchedSelect_sameDisplay (ht : execSchedSelect s = .next t) :
    (if s.atCycleStart then s.take else s).SameDisplay t :=
  sameDisplay_of_guarded ht (State.sameDisplay_writeOrTrap State.sameDisplay_nextPhase _ _ _)

/-- At a cycle start the micro-step displays what SCHED.TAKE displays, whatever the device answers. -/
theorem microStep_sameDisplay_take (hstart : s.atCycleStart = true) (ht : microStep s = .next t) :
    s.take.SameDisplay t := by
  obtain ⟨hf, -, -, hp⟩ := State.atCycleStart_iff.1 hstart
  rw [microStep_of_selected (State.selects_iff.1 (State.selects_schedSelect.2 ⟨hf, hp⟩))] at ht
  have hselect := execSchedSelect_sameDisplay ht
  rwa [if_pos hstart] at hselect

theorem microStep_sameDisplay (hstart : s.atCycleStart = false) (ht : microStep s = .next t) : s.SameDisplay t := by
  have hwrite (sig dur) : s.SameDisplay (s.writeOrTrap sig dur State.nextPhase) :=
    State.sameDisplay_writeOrTrap State.sameDisplay_nextPhase s sig dur
  cases hsel : s.selected with
  | none =>
    rw [microStep_of_selected_none hsel] at ht
    cases ht
    exact ⟨rfl, rfl⟩
  | some i =>
    rw [microStep_of_selected hsel] at ht
    rcases State.selected_cases hsel with rfl | rfl | rfl | rfl | rfl | rfl | rfl | rfl
    · exact sameDisplay_of_guarded ht (State.sameDisplay_goto ..)
    · have hselect := execSchedSelect_sameDisplay ht
      rwa [if_neg (by simp [hstart])] at hselect
    · exact sameDisplay_of_guarded ht (hwrite ..)
    · exact sameDisplay_of_guarded ht (hwrite ..)
    · exact sameDisplay_of_guarded ht (hwrite ..)
    · exact sameDisplay_of_guarded ht (State.sameDisplay_writeOrTrap (State.sameDisplay_goto .rowAdvance) ..)
    · exact sameDisplay_of_guarded ht ⟨rfl, rfl⟩
    · refine sameDisplay_of_guarded ht ?_
      split <;> exact ⟨rfl, rfl⟩

/-! ### Host commands -/

theorem State.sameDisplay_reportError (s : State) : s.SameDisplay s.reportError := by
  unfold State.reportError
  split <;> exact ⟨rfl, rfl⟩

theorem execConstruct_sameDisplay {fbW fbH : Nat} {width height : Int} {nAddr : Nat} {orient : Orient} {mirror : Bool}
    {pin : PinoutArg} {cs : Nat} (ht : execConstruct fbW fbH width height nAddr orient mirror pin cs s = .next t) :
    s.SameDisplay t := by
  unfold execConstruct at ht
  split at ht
  · cases ht
  · split at ht
    · cases ht
      exact ⟨rfl, rfl⟩
    · split at ht
      · cases ht
        exact ⟨rfl, rfl⟩
      · exact sameDisplay_of_guarded ht ⟨rfl, rfl⟩

theorem execShow_sameDisplay (ht : execShow s = .next t) : s.SameDisplay t := by
  unfold execShow at ht
  split at ht
  · cases ht
  · split at ht
    · cases ht
      exact s.sameDisplay_reportError
    · exact sameDisplay_of_guarded ht ⟨rfl, rfl⟩

theorem execStopReq_sameDisplay (ht : execStopReq s = .next t) : s.SameDisplay t :=
  sameDisplay_of_guarded ht ⟨rfl, rfl⟩

theorem execStopAck_sameDisplay (ht : execStopAck s = .next t) : s.SameDisplay t :=
  sameDisplay_of_guarded ht s.endInstance.sameDisplay_reportError

theorem execPoll_sameDisplay (ht : execPoll s = .next t) : s.SameDisplay t :=
  sameDisplay_of_guarded ht s.sameDisplay_reportError

theorem execFbwrite_sameDisplay {x y ch : Nat} {v : Byte} (ht : execFbwrite x y ch v s = .next t) : s.SameDisplay t := by
  unfold execFbwrite at ht
  split at ht
  · cases ht
  · exact sameDisplay_of_guarded ht ⟨rfl, rfl⟩

theorem execFbread_sameDisplay {x y ch : Nat} (ht : execFbread x y ch s = .next t) : s.SameDisplay t := by
  unfold execFbread at ht
  split at ht
  · cases ht
  · exact sameDisplay_of_guarded ht ⟨rfl, rfl⟩

/-- Nothing that can stand in the host's program touches what is displayed. -/
theorem exec_sameDisplay_of_encode {i : Instr} (hi : (encode i).isSome) (ht : exec i s = .next t) : s.SameDisplay t := by
  cases i
  case construct => exact execConstruct_sameDisplay ht
  case showFrame => exact execShow_sameDisplay ht
  case stopReq => exact execStopReq_sameDisplay ht
  case poll => exact execPoll_sameDisplay ht
  case fbwrite => exact execFbwrite_sameDisplay ht
  case fbread => exact execFbread_sameDisplay ht
  case cmdReserved6 => cases ht
  case cmdReserved7 => cases ht
  case fmtPix888 | fmtRgb565 | fmtRgb888 | fmtRgb888packed | enumErr | enumFsm =>
    cases ht
    exact ⟨rfl, rfl⟩
  all_goals cases hi

/-! ### The step -/

/-- What is displayed stays, or one id more is displayed, no smaller than the last. -/
def State.DisplaysOn (s t : State) : Prop :=
  s.SameDisplay t ∨
    ∃ last id, s.displayed.getLast? = some last ∧ t.displayed = s.displayed ++ [id] ∧ last ≤ id

theorem microStep_displaysOn (h : s.Inv) (hst : s.Streamed) (hshows : s.Shows) (ht : microStep s = .next t) :
    t.Shows ∧ s.DisplaysOn t := by
  cases hstart : s.atCycleStart
  · have hsame := microStep_sameDisplay hstart ht
    exact ⟨hshows.of_sameDisplay hsame, .inl hsame⟩
  · have htake := microStep_sameDisplay_take hstart ht
    have htshows := s.take_shows.of_sameDisplay htake
    obtain ⟨hdisplayed, -⟩ := htake
    exact ⟨htshows, .inr ⟨s.active.id, s.take.active.id, hshows,
      hdisplayed.trans s.take_displayed, h.active_id_le_take hst⟩⟩

/-- Only the scheduler's turn can display anything. -/
theorem step_displaysOn (h : s.Inv) (hst : s.Streamed) (hshows : s.Shows) (ht : step s = .next t) :
    t.Shows ∧ s.DisplaysOn t := by
  have hsame {program turns freeTurns}
      (hkept : State.SameDisplay { s with program := program, turns := turns, freeTurns := freeTurns } t) :
      t.Shows ∧ s.DisplaysOn t := ⟨hshows.of_sameDisplay hkept, .inl hkept⟩
  obtain ⟨ts, n, hmicro | ⟨i, p, rest, -, -, hdec, hexec⟩ | hack | hreq | (rfl | rfl) | ⟨-, w, height, rfl⟩⟩ :=
    step_cases ht
  · have hinv : State.Inv { s with turns := ts, freeTurns := n } := h.of_inputs_histories_result
    have hnext := microStep_displaysOn hinv { hst with } hshows hmicro
    exact hnext
  · exact hsame (exec_sameDisplay_of_encode (decode_coded hdec) hexec)
  · exact hsame (execStopAck_sameDisplay hack)
  · exact hsame (execStopReq_sameDisplay hreq)
  · exact ⟨hshows, .inl ⟨rfl, rfl⟩⟩
  · exact ⟨hshows, .inl ⟨rfl, rfl⟩⟩
  · exact ⟨hshows, .inl ⟨rfl, rfl⟩⟩

/-- Settles O48: a cycle's first micro-step displays the id of the frame its take leaves in ACTIVE; from then on the id taken
next is that of ACTIVE or of a frame published since. -/
theorem displayedIdsNeverDecrease : Obligations.DisplayedIdsNeverDecrease :=
  ⟨fun s _ hstart ht => s.take_shows.of_sameDisplay (microStep_sameDisplay_take hstart ht),
    fun _ _ h _ hst hshows ht => step_displaysOn h hst hshows ht⟩

end Sys2Proof.Machine
end

section
/-! Decoding and encoding are inverse (30_encoding.md R90 to R93, R101, R102): each reader of operands succeeds exactly on what
its writer makes, and so does the decoder. -/

namespace Sys2Proof

variable {bs r : List Byte} {i : Instr}

/-! ### Each reader succeeds exactly on the bytes of its writer -/

/-- A bind succeeds exactly when both computations do. -/
theorem except_bind_eq_ok {ε α β : Type} {x : Except ε α} {f : α → Except ε β} {b : β} :
    (x >>= f) = .ok b ↔ ∃ a, x = .ok a ∧ f a = .ok b :=
  ⟨except_bind_ok, fun ⟨_, hx, hf⟩ => hx ▸ hf⟩

theorem readByte_eq_ok {b : Byte} : readByte bs = .ok (b, r) ↔ bs = b :: r :=
  ⟨readByte_ok, fun h => h ▸ rfl⟩

theorem readNat_eq_ok {n : Nat} : readNat bs = .ok (n, r) ↔ bs = natBytes n ++ r :=
  ⟨readNat_ok, fun h => h ▸ readNat_natBytes n r⟩

theorem readInt_eq_ok {z : Int} : readInt bs = .ok (z, r) ↔ bs = intBytes z ++ r :=
  ⟨readInt_ok, fun h => h ▸ readInt_intBytes z r⟩

theorem readPinout_eq_ok {p : PinoutArg} : readPinout bs = .ok (p, r) ↔ bs = pinoutBytes p ++ r :=
  ⟨readPinout_ok, fun h => h ▸ readPinout_pinoutBytes p r⟩

theorem readOrient_eq_ok {o : Orient} :
    readCode Orient.ofCode .badSelector bs = .ok (o, r) ↔ bs = o.code.setWidth 8 :: r :=
  ⟨readCode_ok Orient.ofCode_some, fun h => h ▸ readCode_orient o r⟩

theorem readFlag_eq_ok {b : Bool} : readCode boolOfCode .badSelector bs = .ok (b, r) ↔ bs = boolByte b :: r :=
  ⟨readCode_ok boolOfCode_some, fun h => h ▸ readCode_bool b r⟩

theorem readErrCode_eq_ok {e : ErrCode} :
    readCode ErrCode.ofCode .reservedCode bs = .ok (e, r) ↔ bs = e.code.setWidth 8 :: r :=
  ⟨readCode_ok ErrCode.ofCode_some, fun h => h ▸ by cases e <;> rfl⟩

theorem readFsm_eq_ok {f : Fsm} : readCode Fsm.ofCode .reservedCode bs = .ok (f, r) ↔ bs = f.code.setWidth 8 :: r :=
  ⟨readCode_ok Fsm.ofCode_some, fun h => h ▸ by cases f <;> rfl⟩

/-! ### The RGB565 word (R91, R101) and its two bytes (20_memory.md R63) -/

theorem decodeRgb565_encodeRgb565 (r5 : BitVec 5) (g6 : BitVec 6) (b5 : BitVec 5) :
    decodeRgb565 (encodeRgb565 r5 g6 b5) = .fmtRgb565 r5 g6 b5 := by
  have hr : (r5 ++ g6 ++ b5).extractLsb' 11 5 = r5 := by
    rw [BitVec.extractLsb'_append_eq_of_le (by decide), BitVec.extractLsb'_append_eq_left]
  have hg : (r5 ++ g6 ++ b5).extractLsb' 5 6 = g6 := by
    rw [BitVec.extractLsb'_append_eq_of_le (by decide), BitVec.extractLsb'_append_eq_right]
  unfold decodeRgb565 encodeRgb565
  rw [hr, hg, BitVec.extractLsb'_append_eq_right]

theorem encodeRgb565_extractLsb' (w : BitVec 16) :
    encodeRgb565 (w.extractLsb' 11 5) (w.extractLsb' 5 6) (w.extractLsb' 0 5) = w := by
  unfold encodeRgb565
  rw [BitVec.extractLsb'_append_extractLsb'_eq_extractLsb' (start₂ := 11) (start₁ := 5) rfl,
    BitVec.extractLsb'_append_extractLsb'_eq_extractLsb' (start₂ := 5) (start₁ := 0) rfl, BitVec.extractLsb'_eq_self]

theorem le16_bytesLe16 (w : BitVec 16) : le16 (w.extractLsb' 0 8) (w.extractLsb' 8 8) = w :=
  (BitVec.extractLsb'_append_extractLsb'_eq_extractLsb' rfl).trans BitVec.extractLsb'_eq_self

theorem bytesLe16_le16 (lo hi : Byte) : bytesLe16 (le16 lo hi) = [lo, hi] := by
  rw [bytesLe16, le16, BitVec.extractLsb'_append_eq_right, BitVec.extractLsb'_append_eq_left]

theorem encode_decodeRgb565 (lo hi : Byte) : encode (decodeRgb565 (le16 lo hi)) = some ⟨.rgb565, [lo, hi]⟩ := by
  rw [decodeRgb565, encode, encodeRgb565_extractLsb', bytesLe16_le16]

/-! ### Encode, then decode -/

@[simp] theorem decode_construct_cmd (bs : List Byte) : decode .command (0#8 :: bs) = readConstruct bs := rfl

@[simp] theorem decode_fbwrite_cmd (bs : List Byte) : decode .command (4#8 :: bs) = readFbwrite bs := rfl

@[simp] theorem decode_fbread_cmd (bs : List Byte) : decode .command (5#8 :: bs) = readFbread bs := rfl

theorem readConstruct_operands (fbW fbH : Nat) (width height : Int) (nAddr : Nat) (orient : Orient) (mirror : Bool)
    (pinout : PinoutArg) (colorspace : Nat) (r : List Byte) :
    readConstruct (natBytes fbW ++ (natBytes fbH ++ (intBytes width ++ (intBytes height ++ (natBytes nAddr ++
      orient.code.setWidth 8 :: boolByte mirror :: (pinoutBytes pinout ++ (natBytes colorspace ++ r))))))) =
      .ok (.construct fbW fbH width height nAddr orient mirror pinout colorspace, r) := by
  simp [readConstruct, readNat_natBytes, readInt_intBytes, readCode_orient, readCode_bool, readPinout_pinoutBytes, bind,
    Except.bind, pure, Except.pure]

theorem readFbwrite_operands (x y ch : Nat) (v : Byte) (r : List Byte) :
    readFbwrite (natBytes x ++ (natBytes y ++ (natBytes ch ++ v :: r))) = .ok (.fbwrite x y ch v, r) := by
  simp [readFbwrite, readNat_natBytes, readByte, bind, Except.bind, pure, Except.pure]

theorem readFbread_operands (x y ch : Nat) (r : List Byte) :
    readFbread (natBytes x ++ (natBytes y ++ (natBytes ch ++ r))) = .ok (.fbread x y ch, r) := by
  simp [readFbread, readNat_natBytes, bind, Except.bind, pure, Except.pure]

/-- The decoder reads an encoding back, and leaves the bytes after it. -/
theorem decode_encode {p : Parcel} (h : encode i = some p) (r : List Byte) :
    decode p.space (p.bytes ++ r) = .ok (i, r) := by
  cases i
  case construct fbW fbH width height nAddr orient mirror pinout colorspace =>
    cases h
    simpa using readConstruct_operands fbW fbH width height nAddr orient mirror pinout colorspace r
  case fbwrite x y ch v =>
    cases h
    simpa using readFbwrite_operands x y ch v r
  case fbread x y ch =>
    cases h
    simpa using readFbread_operands x y ch r
  case fmtRgb565 r5 g6 b5 =>
    cases h
    show Except.ok (decodeRgb565 (le16 _ _), r) = _
    rw [le16_bytesLe16, decodeRgb565_encodeRgb565]
  case enumErr e =>
    cases h
    cases e <;> rfl
  case enumFsm f =>
    cases h
    cases f <;> rfl
  case showFrame | stopReq | poll | cmdReserved6 | cmdReserved7 | fmtPix888 | fmtRgb888 | fmtRgb888packed =>
    cases h
    rfl
  all_goals cases h

/-- Settles O8: the decoder reads an encoding back whatever follows it, so also when nothing does. -/
theorem decodeOfEncodeIsTheInstruction : Obligations.DecodeOfEncodeIsTheInstruction := by
  intro i p h
  simpa using decode_encode h []

/-! ### Decode, then encode -/

theorem readConstruct_ok (h : readConstruct bs = .ok (i, r)) : ∃ w, encode i = some ⟨.command, 0 :: w⟩ ∧ bs = w ++ r := by
  simp only [readConstruct, except_bind_eq_ok, Prod.exists, readNat_eq_ok, readInt_eq_ok, readOrient_eq_ok, readFlag_eq_ok,
    readPinout_eq_ok] at h
  obtain ⟨_, _, rfl, _, _, rfl, _, _, rfl, _, _, rfl, _, _, rfl, _, _, rfl, _, _, rfl, _, _, rfl, _, _, rfl, h⟩ := h
  cases h
  exact ⟨_, rfl, by simp⟩

theorem readFbwrite_ok (h : readFbwrite bs = .ok (i, r)) : ∃ w, encode i = some ⟨.command, 4 :: w⟩ ∧ bs = w ++ r := by
  simp only [readFbwrite, except_bind_eq_ok, Prod.exists, readNat_eq_ok, readByte_eq_ok] at h
  obtain ⟨_, _, rfl, _, _, rfl, _, _, rfl, _, _, rfl, h⟩ := h
  cases h
  exact ⟨_, rfl, by simp⟩

theorem readFbread_ok (h : readFbread bs = .ok (i, r)) : ∃ w, encode i = some ⟨.command, 5 :: w⟩ ∧ bs = w ++ r := by
  simp only [readFbread, except_bind_eq_ok, Prod.exists, readNat_eq_ok] at h
  obtain ⟨_, _, rfl, _, _, rfl, _, _, rfl, h⟩ := h
  cases h
  exact ⟨_, rfl, by simp⟩

/-- A command byte that decodes is its CMD, with bits 7 to 3 zero (R102, log 6). -/
theorem decodeCommand_ok (h : decodeCommand bs = .ok (i, r)) : ∃ w, encode i = some ⟨.command, w⟩ ∧ bs = w ++ r := by
  obtain ⟨⟨b, operands⟩, hb, h⟩ := except_bind_ok h
  rw [readByte_ok hb]
  have hcmd {n : Nat} (hn : b.toNat = n)
      (hw : ∃ w, encode i = some ⟨.command, BitVec.ofNat 8 n :: w⟩ ∧ operands = w ++ r) :
      ∃ w, encode i = some ⟨.command, w⟩ ∧ b :: operands = w ++ r := by
    obtain ⟨w, henc, rfl⟩ := hw
    have hb : BitVec.ofNat 8 n = b := by simp [← hn]
    exact ⟨_, henc, by rw [hb]; rfl⟩
  simp only at h
  split at h
  case h_1 hn => exact hcmd hn (readConstruct_ok h)
  case h_5 hn => exact hcmd hn (readFbwrite_ok h)
  case h_6 hn => exact hcmd hn (readFbread_ok h)
  case h_9 => cases h
  all_goals
    rename_i hn
    cases h
    exact hcmd hn ⟨[], rfl, rfl⟩

/-- The bytes the decoder takes from the front are the encoding of what it answers. -/
theorem encode_of_decode {sp : Space} (h : decode sp bs = .ok (i, r)) : ∃ w, encode i = some ⟨sp, w⟩ ∧ bs = w ++ r := by
  cases sp
  case command => exact decodeCommand_ok h
  all_goals
    simp only [decode, except_bind_eq_ok, Prod.exists, readByte_eq_ok, readErrCode_eq_ok, readFsm_eq_ok] at h
  case pix888 | rgb888Packed =>
    obtain ⟨_, _, rfl, _, _, rfl, _, _, rfl, h⟩ := h
    cases h
    exact ⟨_, rfl, rfl⟩
  case rgb565 =>
    obtain ⟨_, _, rfl, _, _, rfl, h⟩ := h
    cases h
    exact ⟨_, encode_decodeRgb565 _ _, rfl⟩
  case rgb888 | errCode | fsmCode =>
    obtain ⟨_, _, rfl, h⟩ := h
    cases h
    exact ⟨_, rfl, rfl⟩

/-- Settles O9: with no bytes left over, the bytes the decoder takes are all of them. -/
theorem encodeOfDecodeIsTheWord : Obligations.EncodeOfDecodeIsTheWord := by
  intro sp bs i h
  obtain ⟨w, hw, rfl⟩ := encode_of_decode h
  simpa using hw

/-- Settles O7: the decoder runs on each of the words. -/
theorem wordsOfTheSpecDecode : Obligations.WordsOfTheSpecDecode := by
  unfold Obligations.WordsOfTheSpecDecode
  decide

end Sys2Proof
end

section
/-! The words assembled from fields (30_encoding.md R90 to R97): pixel words, data words, line words and physical words. -/

namespace Sys2Proof

/-! ### Fields side by side -/

theorem or_shiftLeft_eq_add {n a : Nat} (ha : a < 2 ^ n) (b : Nat) : a ||| b <<< n = a + b * 2 ^ n := by
  rw [Nat.or_comm, ← Nat.shiftLeft_add_eq_or_of_lt ha, Nat.shiftLeft_eq, Nat.add_comm]

theorem toNat_append_eq_add {m n : Nat} (x : BitVec m) (y : BitVec n) :
    (x ++ y).toNat = x.toNat * 2 ^ n + y.toNat := by
  rw [BitVec.toNat_append, ← Nat.shiftLeft_add_eq_or_of_lt y.isLt, Nat.shiftLeft_eq]

/-- A number of `n` bits below one of `m` bits makes one of `n + m`. -/
theorem add_mul_two_pow_lt {n m a b : Nat} (ha : a < 2 ^ n) (hb : b < 2 ^ m) : a + b * 2 ^ n < 2 ^ (n + m) := by
  calc a + b * 2 ^ n < (b + 1) * 2 ^ n := by rw [Nat.succ_mul]; omega
    _ ≤ 2 ^ m * 2 ^ n := Nat.mul_le_mul_right _ hb
    _ = 2 ^ (n + m) := by rw [Nat.pow_add, Nat.mul_comm]

theorem testBit_low_field {n a j : Nat} (ha : a < 2 ^ n) (hj : j < n) (b : Nat) :
    (a + b * 2 ^ n).testBit j = a.testBit j := by
  rw [Nat.add_comm a, Nat.mul_comm b, Nat.testBit_two_pow_mul_add b ha, if_pos hj]

theorem testBit_high_field {n a : Nat} (ha : a < 2 ^ n) (b k : Nat) : (a + b * 2 ^ n).testBit (n + k) = b.testBit k := by
  rw [Nat.add_comm a, Nat.mul_comm b, Nat.testBit_two_pow_mul_add b ha, if_neg (by omega), Nat.add_sub_cancel_left]

/-! ### Bits moved to lines (R97) -/

/-- The lines of two tables in a row carry the low bits and the high bits. -/
theorem moveBits_append {a : Nat} {pins : List Nat} (ha : a < 2 ^ pins.length) (b : Nat) (pins' : List Nat) :
    moveBits (a + b * 2 ^ pins.length) (pins ++ pins') = moveBits a pins ||| moveBits b pins' := by
  induction pins generalizing a with
  | nil =>
    obtain rfl : a = 0 := by simpa using ha
    simp [moveBits]
  | cons p pins ih =>
    rw [List.length_cons, Nat.pow_succ, ← Nat.mul_assoc] at *
    have hmod : (a + b * 2 ^ pins.length * 2) % 2 = a % 2 := by omega
    have hdiv : (a + b * 2 ^ pins.length * 2) / 2 = a / 2 + b * 2 ^ pins.length := by omega
    rw [List.cons_append, moveBits, moveBits, hmod, hdiv, ih (by omega), Nat.or_assoc]

/-- A line that one table entry names carries that entry's bit. -/
theorem testBit_moveBits_of_nodup {pins : List Nat} (hnodup : pins.Nodup) (v : Nat) {k line : Nat}
    (hk : pins[k]? = some line) : (moveBits v pins).testBit line = v.testBit k := by
  rw [Bool.eq_iff_iff, testBit_moveBits]
  constructor
  · rintro ⟨k', hk', hv⟩
    obtain rfl := (List.getElem?_inj (List.getElem?_eq_some_iff.1 hk).1 hnodup).1 (hk.trans hk'.symm)
    exact hv
  · intro hv
    exact ⟨k, hk, hv⟩

theorem testBit_moveBits_of_not_mem {pins : List Nat} (v : Nat) {line : Nat} (hline : line ∉ pins) :
    (moveBits v pins).testBit line = false := by
  rw [← Bool.not_eq_true, testBit_moveBits]
  rintro ⟨k, hk, -⟩
  exact hline (List.mem_of_getElem? hk)

theorem moveBits_range {n v : Nat} (hv : v < 2 ^ n) : moveBits v (List.range n) = v := by
  apply Nat.eq_of_testBit_eq
  intro j
  by_cases hj : j < n
  · exact testBit_moveBits_of_nodup List.nodup_range v (List.getElem?_range hj)
  · rw [testBit_moveBits_of_not_mem v (by simpa using hj),
      Nat.testBit_lt_two_pow (Nat.lt_of_lt_of_le hv (Nat.pow_le_pow_right (by decide) (by omega)))]

/-! ### The lines a table names, in the order of the line word (R96, R97) -/

theorem Pinout.getElem?_lines_data {p : Pinout} {j line : Nat} (hj : p.data[j]? = some line) :
    p.lines[j]? = some line := by
  have hlt : j < p.data.length := (List.getElem?_eq_some_iff.1 hj).1
  rw [Pinout.lines, List.append_assoc, List.getElem?_append_left hlt, hj]

theorem Pinout.getElem?_lines_addr {p : Pinout} {k line : Nat} (hk : p.addr[k]? = some line) :
    p.lines[p.data.length + k]? = some line := by
  have hlt : k < p.addr.length := (List.getElem?_eq_some_iff.1 hk).1
  rw [Pinout.lines, List.append_assoc, List.getElem?_append_right (by omega), Nat.add_sub_cancel_left,
    List.getElem?_append_left hlt, hk]

theorem Pinout.getElem?_lines_lat (p : Pinout) : p.lines[p.data.length + p.addr.length]? = some p.lat := by
  simp [Pinout.lines]

theorem Pinout.getElem?_lines_clk (p : Pinout) : p.lines[p.data.length + p.addr.length + 1]? = some p.clk := by
  rw [Pinout.lines, ← List.length_append, List.getElem?_append_right (by omega), Nat.add_sub_cancel_left]
  rfl

namespace Machine

/-! ### Data words and line words (R95, R96) -/

theorem dataWordOfLanes_lt (lanes : List LaneBits) : dataWordOfLanes lanes < 2 ^ (3 * lanes.length) :=
  orBits_lt _ _

theorem testBit_dataWordOfLanes {lanes : List LaneBits} {l ch : Nat} {x : LaneBits} (hx : lanes[l]? = some x)
    (hch : ch < 3) : (dataWordOfLanes lanes).testBit (3 * l + ch) = x.channel ch := by
  have hl : l < lanes.length := (List.getElem?_eq_some_iff.1 hx).1
  have hlt : 3 * l + ch < 3 * lanes.length := by omega
  have hdiv : (3 * l + ch) / 3 = l := by omega
  have hmod : (3 * l + ch) % 3 = ch := by omega
  rw [dataWordOfLanes, testBit_orBits, hdiv, hmod, List.getD_eq_getElem?_getD, hx]
  simp [hlt]

section
variable {c : Cfg} {sig : Sig} (haddr : sig.addr < 2 ^ c.nAddr) (hdata : sig.data < 2 ^ c.ndata)
include haddr hdata

theorem Cfg.sigFits_of_lt : c.sigFits sig = true := by simp [Cfg.sigFits, haddr, hdata]

/-- The fields of a line word are DATA, ADDR, LAT and CLK, from bit 0 up. -/
theorem Cfg.lineWord_eq_add : c.lineWord sig = sig.data + sig.addr * 2 ^ c.ndata +
    sig.lat.toNat * 2 ^ (c.ndata + c.nAddr) + sig.clk.toNat * 2 ^ (c.ndata + c.nAddr + 1) := by
  have hlow := add_mul_two_pow_lt hdata haddr
  have hlat := add_mul_two_pow_lt (m := 1) hlow (Bool.toNat_lt sig.lat)
  rw [Cfg.lineWord, or_shiftLeft_eq_add hdata, or_shiftLeft_eq_add hlow, or_shiftLeft_eq_add hlat]

/-- The same sum, each field above the whole of the ones below it. -/
theorem Cfg.lineWord_eq_nested : c.lineWord sig =
    sig.data + (sig.addr + (sig.lat.toNat + sig.clk.toNat * 2 ^ 1) * 2 ^ c.nAddr) * 2 ^ c.ndata := by
  rw [Cfg.lineWord_eq_add haddr hdata]
  ring

theorem Cfg.lineWord_lt : c.lineWord sig < 2 ^ c.nsig := by
  have hflags : sig.lat.toNat + sig.clk.toNat * 2 ^ 1 < 2 ^ (1 + 1) :=
    add_mul_two_pow_lt (Bool.toNat_lt sig.lat) (Bool.toNat_lt sig.clk)
  have hnsig : c.nsig = c.ndata + (c.nAddr + (1 + 1)) := by rw [Cfg.nsig]; omega
  rw [Cfg.lineWord_eq_nested haddr hdata, hnsig]
  exact add_mul_two_pow_lt hdata (add_mul_two_pow_lt haddr hflags)

theorem Cfg.testBit_lineWord_data {j : Nat} (hj : j < c.ndata) : (c.lineWord sig).testBit j = sig.data.testBit j := by
  rw [Cfg.lineWord_eq_nested haddr hdata, testBit_low_field hdata hj]

theorem Cfg.testBit_lineWord_addr {k : Nat} (hk : k < c.nAddr) :
    (c.lineWord sig).testBit (c.ndata + k) = sig.addr.testBit k := by
  rw [Cfg.lineWord_eq_nested haddr hdata, testBit_high_field hdata, testBit_low_field haddr hk]

theorem Cfg.testBit_lineWord_lat : (c.lineWord sig).testBit (c.ndata + c.nAddr) = sig.lat := by
  have hbit := testBit_high_field haddr (sig.lat.toNat + sig.clk.toNat * 2 ^ 1) 0
  rw [Cfg.lineWord_eq_nested haddr hdata, testBit_high_field hdata]
  exact hbit.trans (by cases sig.lat <;> cases sig.clk <;> rfl)

theorem Cfg.testBit_lineWord_clk : (c.lineWord sig).testBit (c.ndata + c.nAddr + 1) = sig.clk := by
  rw [Cfg.lineWord_eq_nested haddr hdata, Nat.add_assoc, testBit_high_field hdata, testBit_high_field haddr]
  cases sig.lat <;> cases sig.clk <;> rfl

/-- The physical word is the line word with each bit on the line the table names for it. -/
theorem Cfg.gpio_eq_moveBits_lineWord {p : Pinout} (haddrs : p.addr.length = c.nAddr)
    (hdatas : p.data.length = c.ndata) : p.gpio sig = moveBits (c.lineWord sig) p.lines := by
  have hflags : moveBits (sig.lat.toNat + sig.clk.toNat * 2 ^ 1) [p.lat, p.clk] =
      sig.lat.toNat <<< p.lat ||| sig.clk.toNat <<< p.clk := by
    cases sig.lat <;> cases sig.clk <;> simp [moveBits]
  rw [Cfg.lineWord_eq_nested haddr hdata, Pinout.lines, List.append_assoc, ← hdatas, moveBits_append (hdatas ▸ hdata),
    ← haddrs, moveBits_append (haddrs ▸ haddr), hflags, Pinout.gpio]
  ac_rfl

end

theorem Cfg.pinoutOk_iff {c : Cfg} {n : Nat} {p : Pinout} : c.pinoutOk n p = true ↔
    p.addr.length = c.nAddr ∧ p.data.length = c.ndata ∧ (∀ line ∈ p.lines, line < n) ∧ p.lines.Nodup := by
  simp [Cfg.pinoutOk, and_assoc]

/-! ### The statements about words and their fields -/

/-- Settles O11: a word made by appending fields is the sum of the fields, each above the widths below it. -/
theorem pixelWordsHoldTheirFields : Obligations.PixelWordsHoldTheirFields := by
  intro s
  refine ⟨fun r g b => rfl, fun r g b => ⟨_, rfl, ?_⟩, fun v => rfl, fun r g b => ⟨_, rfl, ?_⟩⟩
  · rw [encodeRgb565, toNat_append_eq_add, toNat_append_eq_add]
    omega
  · rw [pack888P, toNat_append_eq_add, toNat_append_eq_add]
    dsimp only
    omega

/-- Settles O12: a data word has the bits it is made of, and in a line word no field reaches into the next. -/
theorem dataAndLineWordsHoldTheirFields : Obligations.DataAndLineWordsHoldTheirFields := by
  intro s hl
  constructor
  · intro lanes hlanes
    refine ⟨_, withInstance_of hl (decide_eq_true hlanes), ?_, fun l x hx => ?_⟩
    · rw [Cfg.ndata, ← hlanes]
      exact dataWordOfLanes_lt lanes
    · exact ⟨testBit_dataWordOfLanes (ch := 0) hx (by decide), testBit_dataWordOfLanes (ch := 1) hx (by decide),
        testBit_dataWordOfLanes (ch := 2) hx (by decide)⟩
  · intro sig haddr hdata
    exact ⟨_, withInstance_of hl (Cfg.sigFits_of_lt haddr hdata), Cfg.lineWord_lt haddr hdata,
      Cfg.lineWord_eq_add haddr hdata⟩

/-- Settles O13: a named line carries the bit of the line word that the table gives it, and that bit is its signal's. -/
theorem physicalWordRecoversTheRecord : Obligations.PhysicalWordRecoversTheRecord := by
  intro s sig hl haddr hdata hp
  obtain ⟨haddrs, hdatas, -, hnodup⟩ := Cfg.pinoutOk_iff.1 hp
  refine ⟨_, withInstance_of hl (Cfg.sigFits_of_lt haddr hdata), ?_⟩
  rw [Cfg.gpio_eq_moveBits_lineWord haddr hdata haddrs hdatas]
  have hreads {k line : Nat} := testBit_moveBits_of_nodup hnodup (s.cfg.lineWord sig) (k := k) (line := line)
  refine ⟨?_, ?_, fun k line hk => ?_, fun j line hj => ?_, fun _ => testBit_moveBits_of_not_mem _,
    fun hdefault => ?_⟩
  · rw [hreads s.cfg.pinout.getElem?_lines_clk, hdatas, haddrs, Cfg.testBit_lineWord_clk haddr hdata]
  · rw [hreads s.cfg.pinout.getElem?_lines_lat, hdatas, haddrs, Cfg.testBit_lineWord_lat haddr hdata]
  · have hlt : k < s.cfg.nAddr := haddrs ▸ (List.getElem?_eq_some_iff.1 hk).1
    rw [hreads (Pinout.getElem?_lines_addr hk), hdatas, Cfg.testBit_lineWord_addr haddr hdata hlt]
  · have hlt : j < s.cfg.ndata := hdatas ▸ (List.getElem?_eq_some_iff.1 hj).1
    rw [hreads (Pinout.getElem?_lines_data hj), Cfg.testBit_lineWord_data haddr hdata hlt]
  · rw [hdefault, Cfg.defaultPinout_lines, moveBits_range (Cfg.lineWord_lt haddr hdata)]

end Machine
end Sys2Proof
end

section
/-! The geometry operations (40_geometry.md): GEOM's checks, ORI and SPLIT each with its inverse, and MAP and
UNMAP made of them. -/

namespace Sys2Proof
namespace Machine

/-! ### GEOM's checks -/

theorem Orient.quarter_iff {o : Orient} : o.quarter = true ↔ o = .r90 ∨ o = .r270 := by
  cases o <;> simp [Orient.quarter]

/-- GEOM has one error (60_exceptions.md R250). -/
theorem geometryOf_error {width height : Int} {nAddr : Nat} {orient : Orient} {mirror : Bool} {e : ErrCode}
    (h : geometryOf width height nAddr orient mirror = .error e) : e = .invalidGeometry := by
  unfold geometryOf at h
  split_ifs at h <;> cases h <;> rfl

/-- The division GEOM makes on a positive height decides divisibility of the operand as a number with a sign. -/
theorem toNat_mod_eq_zero_iff {height : Int} (h : 0 < height) (n : Nat) :
    height.toNat % n = 0 ↔ (n : Int) ∣ height := by
  rw [← Nat.dvd_iff_mod_eq_zero, ← Int.natCast_dvd_natCast, Int.toNat_of_nonneg h.le]

/-- The four checks in the words of R121. -/
theorem geometryOf_ok_iff {width height : Int} {nAddr : Nat} {orient : Orient} {mirror : Bool} {g : Geometry} :
    geometryOf width height nAddr orient mirror = .ok g ↔
      (0 < width ∧ 0 < height ∧ ((2 ^ nAddr : Nat) : Int) ∣ height ∧
        (orient = .r90 ∨ orient = .r270 → width = height)) ∧
      g = ⟨width.toNat, height.toNat, nAddr, orient, mirror⟩ := by
  rw [geometryOf_ok, Orient.quarter_iff]
  constructor
  · rintro ⟨hw, hh, hrows, hsquare, hg⟩
    exact ⟨⟨hw, hh, (toNat_mod_eq_zero_iff hh _).1 hrows, hsquare⟩, hg⟩
  · rintro ⟨⟨hw, hh, hrows, hsquare⟩, hg⟩
    exact ⟨hw, hh, (toNat_mod_eq_zero_iff hh _).2 hrows, hsquare, hg⟩

theorem exec_geom_of_ok {s : State} {width height : Int} {nAddr : Nat} {orient : Orient} {mirror : Bool} {g : Geometry}
    (h : geometryOf width height nAddr orient mirror = .ok g) :
    exec (.geom width height nAddr orient mirror) s = .next { s with result := .geometry g } := by
  change execGeom .. = _
  rw [execGeom, h]
  rfl

theorem exec_geom_of_error {s : State} {width height : Int} {nAddr : Nat} {orient : Orient} {mirror : Bool}
    {e : ErrCode} (h : geometryOf width height nAddr orient mirror = .error e) :
    exec (.geom width height nAddr orient mirror) s = .next { s with result := .code e } := by
  change execGeom .. = _
  rw [execGeom, h]
  rfl

/-- Settles O15: GEOM returns a geometry exactly when the four checks hold, and there is one error. -/
theorem geomChecksItsOperands : Obligations.GeomChecksItsOperands := by
  intro s width height nAddr orient mirror
  constructor
  · intro hvalid
    exact exec_geom_of_ok (geometryOf_ok_iff.2 ⟨hvalid, rfl⟩)
  · intro hinvalid
    rcases hg : geometryOf width height nAddr orient mirror with e | g
    · rw [exec_geom_of_error hg, geometryOf_error hg]
    · exact absurd (geometryOf_ok_iff.1 hg).1 hinvalid

/-! ### The mirror -/

variable {c : Cfg} {x y a l k : Nat}

/-- Counting from the far edge twice counts from the near one. -/
theorem sub_one_sub_sub_one_sub {n i : Nat} (h : i < n) : n - 1 - (n - 1 - i) = i :=
  Nat.sub_sub_self (Nat.le_sub_one_of_lt h)

/-- The mirror of R124, made before the rotation. -/
def Cfg.mirrorX (c : Cfg) (x : Nat) : Nat := if c.mirror then c.width - 1 - x else x

theorem Cfg.mirrorX_lt (hx : x < c.width) : c.mirrorX x < c.width := by
  unfold Cfg.mirrorX
  split <;> omega

theorem Cfg.mirrorX_mirrorX (hx : x < c.width) : c.mirrorX (c.mirrorX x) = x := by
  cases hm : c.mirror
  · simp [Cfg.mirrorX, hm]
  · simp only [Cfg.mirrorX, hm, if_true, sub_one_sub_sub_one_sub hx]

/-! ### ORI and its inverse -/

theorem Cfg.ori_normal (h : c.orient = .normal) : c.ori x y = ⟨c.mirrorX x, y⟩ := by
  simp only [Cfg.ori, h, Cfg.mirrorX]

theorem Cfg.ori_r90 (h : c.orient = .r90) : c.ori x y = ⟨c.width - 1 - y, c.mirrorX x⟩ := by
  simp only [Cfg.ori, h, Cfg.mirrorX]

theorem Cfg.ori_r180 (h : c.orient = .r180) : c.ori x y = ⟨c.width - 1 - c.mirrorX x, c.height - 1 - y⟩ := by
  simp only [Cfg.ori, h, Cfg.mirrorX]

theorem Cfg.ori_r270 (h : c.orient = .r270) : c.ori x y = ⟨y, c.width - 1 - c.mirrorX x⟩ := by
  simp only [Cfg.ori, h, Cfg.mirrorX]

/-- Physical `(x, y)` to logical: UNMAP after its place is a coordinate again (R127). -/
def Cfg.unori (c : Cfg) (x y : Nat) : Coord :=
  match c.orient with
  | .normal => ⟨c.mirrorX x, y⟩
  | .r90 => ⟨c.mirrorX y, c.width - 1 - x⟩
  | .r180 => ⟨c.mirrorX (c.width - 1 - x), c.height - 1 - y⟩
  | .r270 => ⟨c.mirrorX (c.width - 1 - y), x⟩

theorem Cfg.unmap_eq_unori : c.unmap a l k = c.unori k (l * c.nrows + a) := by
  unfold Cfg.unmap Cfg.unori Cfg.mirrorX
  cases c.orient <;> rfl

section
variable (hsquare : c.orient.quarter = true → c.width = c.height) (hx : x < c.width) (hy : y < c.height)
include hsquare hx hy

theorem Cfg.ori_lt : (c.ori x y).x < c.width ∧ (c.ori x y).y < c.height := by
  have hm := Cfg.mirrorX_lt hx
  cases ho : c.orient with
  | normal =>
    rw [Cfg.ori_normal ho]
    exact ⟨hm, hy⟩
  | r90 =>
    have := hsquare (ho ▸ rfl)
    rw [Cfg.ori_r90 ho]
    constructor <;> dsimp only <;> omega
  | r180 =>
    rw [Cfg.ori_r180 ho]
    constructor <;> dsimp only <;> omega
  | r270 =>
    have := hsquare (ho ▸ rfl)
    rw [Cfg.ori_r270 ho]
    constructor <;> dsimp only <;> omega

/-- Each row of the table is undone by subtracting again, and then by the mirror. -/
theorem Cfg.unori_ori : c.unori (c.ori x y).x (c.ori x y).y = ⟨x, y⟩ := by
  have hm := Cfg.mirrorX_lt hx
  have hback := Cfg.mirrorX_mirrorX hx
  cases ho : c.orient with
  | normal => simp only [Cfg.ori_normal ho, Cfg.unori, ho, hback]
  | r90 =>
    have hyw : y < c.width := hsquare (ho ▸ rfl) ▸ hy
    simp only [Cfg.ori_r90 ho, Cfg.unori, ho, hback, sub_one_sub_sub_one_sub hyw]
  | r180 => simp only [Cfg.ori_r180 ho, Cfg.unori, ho, hback, sub_one_sub_sub_one_sub hm, sub_one_sub_sub_one_sub hy]
  | r270 => simp only [Cfg.ori_r270 ho, Cfg.unori, ho, hback, sub_one_sub_sub_one_sub hm]

theorem Cfg.unori_lt : (c.unori x y).x < c.width ∧ (c.unori x y).y < c.height := by
  cases ho : c.orient with
  | normal =>
    simp only [Cfg.unori, ho]
    exact ⟨Cfg.mirrorX_lt hx, hy⟩
  | r90 =>
    have := hsquare (ho ▸ rfl)
    simp only [Cfg.unori, ho]
    exact ⟨Cfg.mirrorX_lt (by omega), by omega⟩
  | r180 =>
    simp only [Cfg.unori, ho]
    exact ⟨Cfg.mirrorX_lt (by omega), by omega⟩
  | r270 =>
    have := hsquare (ho ▸ rfl)
    simp only [Cfg.unori, ho]
    exact ⟨Cfg.mirrorX_lt (by omega), by omega⟩

theorem Cfg.ori_unori : c.ori (c.unori x y).x (c.unori x y).y = ⟨x, y⟩ := by
  have hlast {i : Nat} : c.width - 1 - i < c.width := by omega
  cases ho : c.orient with
  | normal => simp only [Cfg.ori_normal ho, Cfg.unori, ho, Cfg.mirrorX_mirrorX hx]
  | r90 =>
    have hyw : y < c.width := hsquare (ho ▸ rfl) ▸ hy
    simp only [Cfg.ori_r90 ho, Cfg.unori, ho, Cfg.mirrorX_mirrorX hyw, sub_one_sub_sub_one_sub hx]
  | r180 => simp only [Cfg.ori_r180 ho, Cfg.unori, ho, Cfg.mirrorX_mirrorX hlast, sub_one_sub_sub_one_sub hx,
      sub_one_sub_sub_one_sub hy]
  | r270 =>
    have hyw : y < c.width := hsquare (ho ▸ rfl) ▸ hy
    simp only [Cfg.ori_r270 ho, Cfg.unori, ho, Cfg.mirrorX_mirrorX hlast, sub_one_sub_sub_one_sub hyw]

end

/-! ### SPLIT and its inverse -/

theorem Cfg.nrows_pos : 0 < c.nrows := Nat.two_pow_pos _

/-- The lanes together have the rows of the panel (R122). -/
theorem Cfg.div_nrows_lt (hrows : c.nrows ∣ c.height) (hy : y < c.height) : y / c.nrows < c.mux :=
  Nat.div_lt_div_of_lt_of_dvd hrows hy

theorem Cfg.row_lt_height (hrows : c.nrows ∣ c.height) (ha : a < c.nrows) (hl : l < c.mux) :
    l * c.nrows + a < c.height := calc
  l * c.nrows + a < l * c.nrows + c.nrows := Nat.add_lt_add_left ha _
  _ = (l + 1) * c.nrows := (Nat.succ_mul ..).symm
  _ ≤ c.mux * c.nrows := Nat.mul_le_mul_right _ hl
  _ = c.height := Nat.div_mul_cancel hrows

theorem Cfg.split_row (ha : a < c.nrows) : c.split x (l * c.nrows + a) = ⟨a, l, x⟩ := by
  rw [Cfg.split, Nat.mul_add_mod', Nat.mod_eq_of_lt ha, Nat.add_comm, Nat.add_mul_div_right _ _ Cfg.nrows_pos,
    Nat.div_eq_of_lt ha, Nat.zero_add]

/-! ### MAP and UNMAP -/

section
variable (hsquare : c.orient.quarter = true → c.width = c.height)
include hsquare

theorem Cfg.map_lt (hrows : c.nrows ∣ c.height) (hx : x < c.width) (hy : y < c.height) :
    (c.map x y).a < c.nrows ∧ (c.map x y).l < c.mux ∧ (c.map x y).c < c.width := by
  obtain ⟨hpx, hpy⟩ := Cfg.ori_lt hsquare hx hy
  exact ⟨Nat.mod_lt _ Cfg.nrows_pos, Cfg.div_nrows_lt hrows hpy, hpx⟩

theorem Cfg.unmap_map (hx : x < c.width) (hy : y < c.height) :
    c.unmap (c.map x y).a (c.map x y).l (c.map x y).c = ⟨x, y⟩ := by
  rw [Cfg.unmap_eq_unori]
  simp only [Cfg.map, Cfg.split, Nat.div_add_mod']
  exact Cfg.unori_ori hsquare hx hy

theorem Cfg.unmap_lt (hrows : c.nrows ∣ c.height) (ha : a < c.nrows) (hl : l < c.mux) (hk : k < c.width) :
    (c.unmap a l k).x < c.width ∧ (c.unmap a l k).y < c.height := by
  rw [Cfg.unmap_eq_unori]
  exact Cfg.unori_lt hsquare hk (Cfg.row_lt_height hrows ha hl)

theorem Cfg.map_unmap (hrows : c.nrows ∣ c.height) (ha : a < c.nrows) (hl : l < c.mux) (hk : k < c.width) :
    c.map (c.unmap a l k).x (c.unmap a l k).y = ⟨a, l, k⟩ := by
  rw [Cfg.map, Cfg.unmap_eq_unori, Cfg.ori_unori hsquare hk (Cfg.row_lt_height hrows ha hl)]
  exact Cfg.split_row ha

end

/-! ### The operations on operands in range -/

section
variable {s : State} (hlife : s.life = .constructed) (hx : x < s.cfg.width) (hy : y < s.cfg.height)

include hx hy in
theorem State.coordInRange_of_lt : s.coordInRange x y = true := by
  simp [State.coordInRange, hx, hy]

include hlife hx hy

theorem exec_ori : exec (.ori x y) s = .next { s with result := .coord (s.cfg.ori x y) } :=
  withInstance_of hlife (State.coordInRange_of_lt hx hy)

theorem exec_split : exec (.split x y) s = .next { s with result := .place (s.cfg.split x y) } :=
  withInstance_of hlife (State.coordInRange_of_lt hx hy)

theorem exec_map : exec (.map x y) s = .next { s with result := .place (s.cfg.map x y) } :=
  withInstance_of hlife (State.coordInRange_of_lt hx hy)

end

theorem exec_unmap {s : State} (hlife : s.life = .constructed) (ha : a < s.cfg.nrows) (hl : l < s.cfg.mux)
    (hk : k < s.cfg.width) : exec (.unmap a l k) s = .next { s with result := .coord (s.cfg.unmap a l k) } :=
  withInstance_of hlife (by simp [State.placeInRange, ha, hl, hk])

/-! ### The statements about ORI, SPLIT, MAP and UNMAP -/

/-- Settles O17: MAP is ORI and then SPLIT, and each of the two has an inverse that keeps to the panel. -/
theorem mapAndUnmapAreInverse : Obligations.MapAndUnmapAreInverse := by
  intro s hlife ⟨_, _, hrows, hsquare, _⟩
  constructor
  · intro x y hx hy
    have ⟨ha, hl, hk⟩ := Cfg.map_lt hsquare hrows hx hy
    refine ⟨(s.cfg.map x y).a, (s.cfg.map x y).l, (s.cfg.map x y).c, exec_map hlife hx hy, ha, hl, hk, ?_⟩
    rw [exec_unmap hlife ha hl hk, Cfg.unmap_map hsquare hx hy]
  · intro a l k ha hl hk
    have ⟨hx, hy⟩ := Cfg.unmap_lt hsquare hrows ha hl hk
    refine ⟨(s.cfg.unmap a l k).x, (s.cfg.unmap a l k).y, exec_unmap hlife ha hl hk, hx, hy, ?_⟩
    rw [exec_map hlife hx hy, Cfg.map_unmap hsquare hrows ha hl hk]

/-- Settles O16: the rows of ORI's table, the division of the physical row, and MAP applied to what ORI answered. -/
theorem oriSplitAndMapFollowTheirTables : Obligations.OriSplitAndMapFollowTheirTables := by
  intro s x y hlife hx hy
  refine ⟨?_, ?_, ?_⟩
  · rintro xm rfl
    rw [exec_ori hlife hx hy]
    refine ⟨fun ho => ?_, fun ho => ?_, fun ho => ?_, fun ho => ?_⟩
    · rw [Cfg.ori_normal ho, Cfg.mirrorX]
    · rw [Cfg.ori_r90 ho, Cfg.mirrorX]
    · rw [Cfg.ori_r180 ho, Cfg.mirrorX]
    · rw [Cfg.ori_r270 ho, Cfg.mirrorX]
  · exact ⟨_, _, exec_split hlife hx hy, Nat.mod_lt _ Cfg.nrows_pos, (Nat.div_add_mod' ..).symm⟩
  · intro px py hori
    have hcoord : s.cfg.ori x y = ⟨px, py⟩ := by
      rw [exec_ori hlife hx hy] at hori
      simpa using congrArg State.result (Host.Outcome.next.inj hori)
    rw [exec_map hlife hx hy, Cfg.map, hcoord]
    rfl

end Machine
end Sys2Proof
end

section
/-! The pixel conversions (41_pixel_formats.md R142 to R152): DOWN and UP are one rounding division, PACK565 and
UNPACK565 apply them to the fields of the RGB565 word, and the 24-bit words are their bytes side by side. -/

namespace Sys2Proof

/-! ### Rounding to the nearest -/

/-- Division that rounds to the nearest: what DOWN and UP are made of (R142, R146). -/
def roundDiv (x d : Nat) : Nat := (x + d / 2) / d

section
variable {x d q : Nat}

theorem roundDiv_error (hd : d % 2 = 1) : 2 * ((d * roundDiv x d : Int) - x).natAbs < d := by
  have hdiv : d * roundDiv x d + (x + d / 2) % d = x + d / 2 := Nat.div_add_mod ..
  have hmod : (x + d / 2) % d < d := Nat.mod_lt _ (by omega)
  generalize (x + d / 2) % d = r at hdiv hmod
  zify at hdiv
  omega

/-- No other number of whole steps comes within half a step. -/
theorem eq_roundDiv_of_error (h : 2 * ((d * q : Int) - x).natAbs < d) : q = roundDiv x d := by
  have hlow : q * d ≤ x + d / 2 := by
    rw [Nat.mul_comm]
    zify
    omega
  have hhigh : x + d / 2 < (q + 1) * d := by
    rw [Nat.mul_comm, Nat.mul_succ]
    zify
    omega
  exact (Nat.div_eq_of_lt_le hlow hhigh).symm

theorem roundDiv_nearest (hd : d % 2 = 1) (hq : q ≠ roundDiv x d) :
    ((d * roundDiv x d : Int) - x).natAbs < ((d * q : Int) - x).natAbs := by
  have herror := roundDiv_error (x := x) hd
  have hfar : ¬2 * ((d * q : Int) - x).natAbs < d := fun h => hq (eq_roundDiv_of_error h)
  omega

theorem roundDiv_le (hd : 0 < d) (hx : x ≤ d * q) : roundDiv x d ≤ q := by
  rw [roundDiv, ← Nat.lt_succ_iff, Nat.div_lt_iff_lt_mul hd, Nat.succ_mul, Nat.mul_comm q]
  omega

/-- From the coarse scale to the fine one and back: the error of the first rounding is less than half a coarse step. -/
theorem roundDiv_roundDiv {a b : Nat} (ha : a % 2 = 1) (hab : a ≤ b) : roundDiv (roundDiv (q * b) a * a) b = q := by
  have herror := roundDiv_error (x := q * b) ha
  refine (eq_roundDiv_of_error ?_).symm
  push_cast at herror ⊢
  rw [Int.mul_comm b, Int.mul_comm (roundDiv _ a)]
  omega

/-- From the fine scale to the coarse one and back: the two roundings' errors add up. -/
theorem roundDiv_roundDiv_error {a b : Nat} (ha : a % 2 = 1) (hb : b % 2 = 1) :
    2 * (a * ((roundDiv (roundDiv (x * a) b * b) a : Int) - x).natAbs) + 2 ≤ a + b := by
  have hdown := roundDiv_error (x := x * a) hb
  have hup := roundDiv_error (x := roundDiv (x * a) b * b) ha
  generalize roundDiv (x * a) b = m at hdown hup ⊢
  generalize roundDiv (m * b) a = y at hup ⊢
  have habs : a * ((y : Int) - x).natAbs = ((a * y : Int) - a * x).natAbs := by
    rw [← Int.mul_sub, Int.natAbs_mul, Int.natAbs_natCast]
  rw [habs]
  push_cast at hdown hup
  rw [Int.mul_comm x] at hdown
  rw [Int.mul_comm m] at hup
  omega

end

/-- The highest level of a field. -/
def FieldWidth.top (n : FieldWidth) : Nat := 2 ^ n.bits - 1

theorem FieldWidth.top_odd (n : FieldWidth) : n.top % 2 = 1 := by cases n <;> rfl

theorem FieldWidth.top_pos (n : FieldWidth) : 0 < n.top := by cases n <;> decide

theorem FieldWidth.top_le (n : FieldWidth) : n.top ≤ 255 := by cases n <;> decide

theorem FieldWidth.le_top_iff {n : FieldWidth} {q : Nat} : q ≤ n.top ↔ q < 2 ^ n.bits :=
  Nat.le_sub_one_iff_lt (Nat.two_pow_pos _)

theorem FieldWidth.cast_top (n : FieldWidth) : (n.top : Int) = 2 ^ n.bits - 1 := by cases n <;> rfl

namespace Machine

variable {n : FieldWidth} {q v : Nat}

/-! ### DOWN and UP (R142, R146) -/

theorem down_eq_roundDiv : down v n = roundDiv (v * n.top) 255 := rfl

theorem up_eq_roundDiv : up q n = roundDiv (q * 255) n.top := rfl

theorem down_lt (hv : v ≤ 255) : down v n < 2 ^ n.bits :=
  FieldWidth.le_top_iff.1 (roundDiv_le (by decide) (Nat.mul_le_mul_right _ hv))

theorem up_le (hq : q < 2 ^ n.bits) : up q n ≤ 255 :=
  roundDiv_le n.top_pos (Nat.mul_le_mul_right _ (FieldWidth.le_top_iff.2 hq))

/-- UP loses nothing (R148). -/
theorem down_up : down (up q n) n = q := by
  rw [down_eq_roundDiv, up_eq_roundDiv, roundDiv_roundDiv n.top_odd n.top_le]

theorem up_down_error : 2 * (n.top * ((up (down v n) n : Int) - v).natAbs) + 2 ≤ n.top + 255 := by
  rw [down_eq_roundDiv, up_eq_roundDiv]
  exact roundDiv_roundDiv_error n.top_odd (by decide)

/-- An intensity survives DOWN and UP exactly when UP gives it. -/
theorem up_down_eq_iff (hv : v ≤ 255) : up (down v n) n = v ↔ ∃ q < 2 ^ n.bits, v = up q n := by
  constructor
  · intro h
    exact ⟨down v n, down_lt hv, h.symm⟩
  · rintro ⟨q, -, rfl⟩
    rw [down_up]

theorem byte_toNat_le (v : Byte) : v.toNat ≤ 255 := Nat.le_of_lt_succ v.isLt

/-- Settles O18: DOWN is a rounding division by 255. -/
theorem downIsTheNearestLevel : Obligations.DownIsTheNearestLevel := by
  intro s v n
  refine ⟨down v.toNat n, rfl, rfl, down_lt (byte_toNat_le v), fun m _ hm => ?_⟩
  rw [down_eq_roundDiv] at hm ⊢
  have hnearest := roundDiv_nearest (by decide) hm
  push_cast [FieldWidth.cast_top] at hnearest
  exact hnearest

theorem exec_up (s : State) (hq : q < 2 ^ n.bits) : exec (.up q n) s = .next { s with result := .nat (up q n) } :=
  if_pos (decide_eq_true hq)

theorem exec_up_of_no_level (s : State) (hq : 2 ^ n.bits ≤ q) : exec (.up q n) s = .refused .badOperand :=
  if_neg (by simpa using hq)

/-- Settles O19: UP is a rounding division by the highest level, and a number beyond it fails the operand check. -/
theorem upIsTheNearestIntensity : Obligations.UpIsTheNearestIntensity := by
  intro s q n
  refine ⟨fun hq => ⟨up q n, exec_up s hq, rfl, up_le hq, fun m _ hm => ?_⟩, exec_up_of_no_level s⟩
  rw [up_eq_roundDiv] at hm ⊢
  have hnearest := roundDiv_nearest n.top_odd hm
  push_cast [FieldWidth.cast_top] at hnearest
  exact hnearest

/-! ### The RGB565 word (R143, R147) -/

/-- What UNPACK565 makes of a level (R147). -/
def upByte (q : Nat) (n : FieldWidth) : Byte := BitVec.ofNat 8 (up q n)

theorem toNat_upByte (hq : q < 2 ^ n.bits) : (upByte q n).toNat = up q n :=
  Nat.mod_eq_of_lt (Nat.lt_succ_of_le (up_le hq))

theorem upByte_down_eq_iff (v : Byte) : upByte (down v.toNat n) n = v ↔ ∃ q < 2 ^ n.bits, v.toNat = up q n := by
  have hv := byte_toNat_le v
  rw [← BitVec.toNat_inj, toNat_upByte (down_lt hv), up_down_eq_iff hv]

theorem down_five_lt (v : Byte) : down v.toNat .five < 2 ^ 5 := down_lt (byte_toNat_le v)

theorem down_six_lt (v : Byte) : down v.toNat .six < 2 ^ 6 := down_lt (byte_toNat_le v)

/-- PACK565's fields stand side by side in 16 bits. -/
theorem toNat_pack565 (p : Pixel) :
    (pack565 p).toNat = down p.r8.toNat .five * 2 ^ 11 + down p.g8.toNat .six * 2 ^ 5 + down p.b8.toNat .five := by
  have hr := down_five_lt p.r8
  have hg := down_six_lt p.g8
  have hb := down_five_lt p.b8
  have hgb : down p.g8.toNat .six <<< 5 + down p.b8.toNat .five < 2 ^ 11 := by
    rw [Nat.shiftLeft_eq]
    omega
  rw [pack565, Nat.or_assoc, ← Nat.shiftLeft_add_eq_or_of_lt hb, ← Nat.shiftLeft_add_eq_or_of_lt hgb,
    BitVec.toNat_ofNat, Nat.shiftLeft_eq, Nat.shiftLeft_eq, Nat.mod_eq_of_lt (by omega), Nat.add_assoc]

/-- UNPACK565's fields are digits of the word. -/
theorem unpack565_eq (w : BitVec 16) :
    unpack565 w =
      ⟨upByte (w.toNat / 2 ^ 11) .five, upByte (w.toNat / 2 ^ 5 % 2 ^ 6) .six, upByte (w.toNat % 2 ^ 5) .five⟩ := by
  have hfield (i k : Nat) : (w.extractLsb' i k).toNat = w.toNat / 2 ^ i % 2 ^ k := by
    rw [BitVec.extractLsb'_toNat, Nat.shiftRight_eq_div_pow]
  have htop : w.toNat / 2 ^ 11 % 2 ^ 5 = w.toNat / 2 ^ 11 := Nat.mod_eq_of_lt (by omega)
  rw [unpack565, hfield, hfield, hfield, htop, Nat.pow_zero, Nat.div_one]
  rfl

theorem toNat_unpack565_r8 (w : BitVec 16) : (unpack565 w).r8.toNat = up (w.toNat / 2 ^ 11) .five := by
  rw [unpack565_eq]
  exact toNat_upByte (by change _ < 2 ^ 5; omega)

theorem toNat_unpack565_g8 (w : BitVec 16) : (unpack565 w).g8.toNat = up (w.toNat / 2 ^ 5 % 2 ^ 6) .six := by
  rw [unpack565_eq]
  exact toNat_upByte (Nat.mod_lt _ (by decide))

theorem toNat_unpack565_b8 (w : BitVec 16) : (unpack565 w).b8.toNat = up (w.toNat % 2 ^ 5) .five := by
  rw [unpack565_eq]
  exact toNat_upByte (Nat.mod_lt _ (by decide))

/-- Unpacking and then packing loses nothing (R148 (a)): DOWN undoes UP in each field. -/
theorem pack565_unpack565 (w : BitVec 16) : pack565 (unpack565 w) = w := by
  apply BitVec.eq_of_toNat_eq
  rw [toNat_pack565, toNat_unpack565_r8, toNat_unpack565_g8, toNat_unpack565_b8, down_up, down_up, down_up]
  omega

theorem unpack565_pack565 (p : Pixel) :
    unpack565 (pack565 p) = ⟨upByte (down p.r8.toNat .five) .five, upByte (down p.g8.toNat .six) .six,
      upByte (down p.b8.toNat .five) .five⟩ := by
  have hg := down_six_lt p.g8
  have hb := down_five_lt p.b8
  rw [unpack565_eq, toNat_pack565]
  congr 2 <;> omega

/-- Settles O20: the fields do not overlap, so the word is their sum. -/
theorem pack565FieldsAreTheNearestLevels : Obligations.Pack565FieldsAreTheNearestLevels :=
  fun _ _ _ _ => ⟨_, rfl, toNat_pack565 _⟩

/-- Settles O21: UP of a field fits in a byte, and the fields are digits of the word. -/
theorem unpack565ChannelsAreTheNearestIntensities : Obligations.Unpack565ChannelsAreTheNearestIntensities :=
  fun _ w => ⟨unpack565 w, rfl, toNat_unpack565_r8 w, toNat_unpack565_g8 w, toNat_unpack565_b8 w⟩

/-- Settles O22: DOWN undoes UP, and the two roundings' errors add up to the bounds. -/
theorem rgb565PairLaws : Obligations.Rgb565PairLaws := by
  refine ⟨pack565_unpack565, fun v => ?_, fun p => ?_, fun p => pack565_unpack565 _, by decide, by decide⟩
  · have hfive : 2 * (31 * _) + 2 ≤ 31 + 255 := up_down_error (n := .five) (v := v.toNat)
    have hsix : 2 * (63 * _) + 2 ≤ 63 + 255 := up_down_error (n := .six) (v := v.toNat)
    constructor <;> omega
  · rw [unpack565_pack565, Pixel.mk.injEq]
    exact and_congr (upByte_down_eq_iff p.r8) (and_congr (upByte_down_eq_iff p.g8) (upByte_down_eq_iff p.b8))

/-! ### The 24-bit words (R149 to R152) -/

theorem toNat_pack888P (p : Pixel) :
    (pack888P p).toNat = p.r8.toNat * 2 ^ 16 + p.g8.toNat * 2 ^ 8 + p.b8.toNat := by
  rw [pack888P, toNat_append_eq_add, toNat_append_eq_add]
  omega

theorem unpack888P_pack888P (p : Pixel) : unpack888P (pack888P p) = p := by
  have hr : (p.r8 ++ p.g8 ++ p.b8).extractLsb' 16 8 = p.r8 := by
    rw [BitVec.extractLsb'_append_eq_of_le (by decide), BitVec.extractLsb'_append_eq_left]
  have hg : (p.r8 ++ p.g8 ++ p.b8).extractLsb' 8 8 = p.g8 := by
    rw [BitVec.extractLsb'_append_eq_of_le (by decide), BitVec.extractLsb'_append_eq_right]
  rw [unpack888P, pack888P, hr, hg, BitVec.extractLsb'_append_eq_right]

theorem pack888P_unpack888P (w : BitVec 24) : pack888P (unpack888P w) = w := by
  rw [pack888P, unpack888P, BitVec.extractLsb'_append_extractLsb'_eq_extractLsb' (start₂ := 16) (start₁ := 8) rfl,
    BitVec.extractLsb'_append_extractLsb'_eq_extractLsb' (start₂ := 8) (start₁ := 0) rfl, BitVec.extractLsb'_eq_self]

/-- Settles O23: the plane conversions keep their bytes, and the packed word and its bytes determine each other. -/
theorem twentyFourBitPixelsPassThrough : Obligations.TwentyFourBitPixelsPassThrough := by
  intro s r g b
  refine ⟨rfl, rfl, ⟨pack888P ⟨r, g, b⟩, rfl, toNat_pack888P _, ?_⟩, fun w => ⟨unpack888P w, rfl, ?_⟩⟩
  · change Host.Outcome.next (s.answer (.pixel (unpack888P _))) = _
    rw [unpack888P_pack888P]
    rfl
  · rw [← toNat_pack888P, pack888P_unpack888P]

end Machine
end Sys2Proof
end

section
/-! The whole-frame conversions (41_pixel_formats.md R153 to R155): the bytes of PK in each layout, UNPACKFRAME pixel
by pixel, and the 24-bit round trip. -/

namespace Sys2Proof
namespace Machine

variable {c : Cfg} {frame pk : List Byte} {p ch : Nat}

/-! ### PK in each layout (20_memory.md R63 to R66) -/

theorem bytesBe24_pack888P (px : Pixel) : bytesBe24 (pack888P px) = px.bytes :=
  congrArg Pixel.bytes (unpack888P_pack888P px)

theorem byteAt_bytes_pixelAt (hch : ch ≤ 2) : byteAt (pixelAt frame p).bytes ch = byteAt frame (3 * p + ch) := by
  interval_cases ch <;> rfl

theorem channel_pixelAt (hch : ch ≤ 2) : (pixelAt frame p).channel ch = byteAt frame (3 * p + ch) := by
  interval_cases ch <;> rfl

theorem Cfg.packFrame_rgb565 (hf : c.format = .rgb565) :
    c.packFrame frame = (List.range c.npix).flatMap fun p => bytesLe16 (pack565 (pixelAt frame p)) := by
  rw [Cfg.packFrame, hf]

theorem Cfg.packFrame_rgb888 (hf : c.format = .rgb888) :
    c.packFrame frame =
      (List.range 3).flatMap fun ch => (List.range c.npix).map fun p => (pixelAt frame p).channel ch := by
  rw [Cfg.packFrame, hf]
  rfl

theorem Cfg.packFrame_rgb888Packed (hf : c.format = .rgb888Packed) :
    c.packFrame frame = (List.range c.npix).flatMap fun p => (pixelAt frame p).bytes := by
  rw [Cfg.packFrame, hf]
  simp only [bytesBe24_pack888P]

/-- PK has the size of its format (20_memory.md R60). -/
theorem Cfg.length_packFrame : (c.packFrame frame).length = c.pkSize := by
  unfold Cfg.pkSize
  cases hf : c.format with
  | rgb565 =>
    rw [Cfg.packFrame_rgb565 hf, length_flatMap_const _ _ 2 (fun _ _ => rfl), List.length_range, Nat.mul_comm]
  | rgb888 =>
    rw [Cfg.packFrame_rgb888 hf, length_flatMap_const _ _ c.npix (fun _ _ => by simp), List.length_range]
  | rgb888Packed =>
    rw [Cfg.packFrame_rgb888Packed hf, length_flatMap_const _ _ 3 (fun _ _ => rfl), List.length_range, Nat.mul_comm]

theorem Cfg.byteAt_packFrame_rgb565 (hf : c.format = .rgb565) (hp : p < c.npix) {j : Nat} (hj : j < 2) :
    byteAt (c.packFrame frame) (2 * p + j) = byteAt (bytesLe16 (pack565 (pixelAt frame p))) j := by
  rw [Cfg.packFrame_rgb565 hf, byteAt_flatMap_const _ 2 _ (fun _ => rfl) _ _ hp hj]

theorem Cfg.byteAt_packFrame_rgb888 (hf : c.format = .rgb888) (hp : p < c.npix) (hch : ch ≤ 2) :
    byteAt (c.packFrame frame) (ch * c.npix + p) = byteAt frame (3 * p + ch) := by
  rw [Cfg.packFrame_rgb888 hf, Nat.mul_comm,
    byteAt_flatMap_const 3 c.npix _ (fun _ => by simp) _ _ (Nat.lt_succ_of_le hch) hp, byteAt,
    List.getD_eq_getElem _ _ (by simpa using hp), List.getElem_map, List.getElem_range, channel_pixelAt hch]

theorem Cfg.byteAt_packFrame_rgb888Packed (hf : c.format = .rgb888Packed) (hp : p < c.npix) (hch : ch ≤ 2) :
    byteAt (c.packFrame frame) (3 * p + ch) = byteAt frame (3 * p + ch) := by
  rw [Cfg.packFrame_rgb888Packed hf, byteAt_flatMap_const _ 3 _ (fun _ => rfl) _ _ hp (Nat.lt_succ_of_le hch),
    byteAt_bytes_pixelAt hch]

/-- The two bytes of a 16-bit word in PK spell it, the low one first (R63). -/
theorem toNat_bytesLe16 (w : BitVec 16) :
    (byteAt (bytesLe16 w) 0).toNat + 256 * (byteAt (bytesLe16 w) 1).toNat = w.toNat := by
  have hword : (w.extractLsb' 8 8 ++ w.extractLsb' 0 8).toNat = w.toNat := congrArg BitVec.toNat (le16_bytesLe16 w)
  rw [toNat_append_eq_add] at hword
  change (w.extractLsb' 0 8).toNat + 256 * (w.extractLsb' 8 8).toNat = w.toNat
  omega

/-! ### U, pixel by pixel -/

theorem Cfg.length_unpackFrame : (c.unpackFrame pk).length = 3 * c.npix := by
  rw [Cfg.unpackFrame, length_flatMap_const _ _ 3 (fun _ _ => rfl), List.length_range, Nat.mul_comm]

theorem Cfg.unpackPixel_rgb565 (hf : c.format = .rgb565) :
    c.unpackPixel pk p = unpack565 (byteAt pk (2 * p + 1) ++ byteAt pk (2 * p)) := by
  rw [Cfg.unpackPixel, hf]
  rfl

theorem Cfg.unpackPixel_rgb888 (hf : c.format = .rgb888) :
    c.unpackPixel pk p = ⟨byteAt pk p, byteAt pk (c.npix + p), byteAt pk (2 * c.npix + p)⟩ := by
  rw [Cfg.unpackPixel, hf]
  rfl

theorem Cfg.unpackPixel_rgb888Packed (hf : c.format = .rgb888Packed) :
    c.unpackPixel pk p = pixelAt pk p := by
  rw [Cfg.unpackPixel, hf]
  exact unpack888P_pack888P (pixelAt pk p)

/-! ### The 24-bit round trip (R155) -/

theorem pixelAt_eq_of_byteAt_eq (h : ∀ ch ≤ 2, byteAt pk (3 * p + ch) = byteAt frame (3 * p + ch)) :
    pixelAt pk p = pixelAt frame p := by
  have h0 := h 0 (by decide)
  rw [Nat.add_zero] at h0
  rw [pixelAt, pixelAt, h0, h 1 (by decide), h 2 (by decide)]

theorem Cfg.unpackPixel_packFrame (hf : c.format = .rgb888 ∨ c.format = .rgb888Packed) (hp : p < c.npix) :
    c.unpackPixel (c.packFrame frame) p = pixelAt frame p := by
  rcases hf with hf | hf
  · have hplane {ch : Nat} (hch : ch ≤ 2) := Cfg.byteAt_packFrame_rgb888 (frame := frame) hf hp hch
    have h0 := hplane (ch := 0) (by decide)
    have h1 := hplane (ch := 1) (by decide)
    rw [Nat.zero_mul, Nat.zero_add, Nat.add_zero] at h0
    rw [Nat.one_mul] at h1
    rw [Cfg.unpackPixel_rgb888 hf, h0, h1, hplane (ch := 2) (by decide), pixelAt]
  · rw [Cfg.unpackPixel_rgb888Packed hf]
    exact pixelAt_eq_of_byteAt_eq fun ch hch => Cfg.byteAt_packFrame_rgb888Packed hf hp hch

/-- A buffer with the layout of FB is determined by its pixels (20_memory.md R61). -/
theorem eq_of_pixelAt_eq {m : Nat} {xs ys : List Byte} (hx : xs.length = 3 * m) (hy : ys.length = 3 * m)
    (h : ∀ p < m, pixelAt xs p = pixelAt ys p) : xs = ys := by
  refine List.ext_getElem (hx.trans hy.symm) fun i hix hiy => ?_
  have hbyte : byteAt xs (3 * (i / 3) + i % 3) = byteAt ys (3 * (i / 3) + i % 3) := by
    rw [← channel_pixelAt (by omega), ← channel_pixelAt (by omega), h _ (by omega)]
  rwa [Nat.div_add_mod, byteAt, byteAt, List.getD_eq_getElem _ _ hix, List.getD_eq_getElem _ _ hiy] at hbyte

theorem Cfg.unpackFrame_packFrame (hf : c.format = .rgb888 ∨ c.format = .rgb888Packed)
    (hlen : frame.length = 3 * c.npix) : c.unpackFrame (c.packFrame frame) = frame :=
  eq_of_pixelAt_eq Cfg.length_unpackFrame hlen fun p hp => by
    rw [Cfg.pixelAt_unpackFrame c _ p hp, Cfg.unpackPixel_packFrame hf hp]

/-! ### The statements about PACKFRAME and UNPACKFRAME -/

theorem exec_packframe {s : State} (hlife : s.life = .constructed) (hlen : frame.length = 3 * s.cfg.npix) :
    exec (.packframe frame) s = .next { s with pk := s.cfg.packFrame frame } :=
  withInstance_of hlife (decide_eq_true hlen)

theorem exec_unpackframe {s : State} (hlife : s.life = .constructed) (hlen : pk.length = s.cfg.pkSize) :
    exec (.unpackframe pk) s = .next { s with u := s.cfg.unpackFrame pk } :=
  withInstance_of hlife (decide_eq_true hlen)

/-- Settles O24: PK is built of pieces of one length, a pixel's bytes or a channel's plane. -/
theorem packframeWritesPkByLayout : Obligations.PackframeWritesPkByLayout := by
  intro s frame hlife hlen
  have hsize {m : Nat} (hm : s.cfg.pkSize = m) : (s.cfg.packFrame frame).length = m := Cfg.length_packFrame.trans hm
  refine ⟨s.cfg.packFrame frame, exec_packframe hlife hlen,
    fun hf => ⟨hsize (by rw [Cfg.pkSize, hf]), fun p hp => ?_⟩,
    fun hf => ⟨hsize (by rw [Cfg.pkSize, hf]), fun ch hch p hp => Cfg.byteAt_packFrame_rgb888 hf hp hch⟩,
    fun hf => ⟨hsize (by rw [Cfg.pkSize, hf]), fun p hp ch hch => Cfg.byteAt_packFrame_rgb888Packed hf hp hch⟩⟩
  have hbyte {j : Nat} (hj : j < 2) := Cfg.byteAt_packFrame_rgb565 (frame := frame) hf hp hj
  rw [← Nat.add_zero (2 * p), hbyte (by decide), Nat.add_zero, hbyte (by decide), toNat_bytesLe16, pixelAt]

/-- Settles O25: U holds the unpacked pixels in the layout of FB. -/
theorem unpackframeWritesUByLayout : Obligations.UnpackframeWritesUByLayout := by
  intro s pk hlife hlen
  refine ⟨s.cfg.unpackFrame pk, exec_unpackframe hlife hlen, Cfg.length_unpackFrame, fun p hp px hpx => ?_⟩
  have hpixel : px = s.cfg.unpackPixel pk p := hpx.trans (Cfg.pixelAt_unpackFrame s.cfg pk p hp)
  exact ⟨fun hf => hpixel.trans (Cfg.unpackPixel_rgb565 hf), fun hf => hpixel.trans (Cfg.unpackPixel_rgb888 hf),
    fun hf => hpixel.trans (Cfg.unpackPixel_rgb888Packed hf)⟩

/-- Settles O26: in a 24-bit format every pixel read from PK is the frame's own. -/
theorem twentyFourBitFramesRoundTrip : Obligations.TwentyFourBitFramesRoundTrip := by
  intro s frame hlife hlen hf
  have hunpack : exec (.unpackframe (s.cfg.packFrame frame)) { s with pk := s.cfg.packFrame frame } =
      .next { s with pk := s.cfg.packFrame frame, u := s.cfg.unpackFrame (s.cfg.packFrame frame) } :=
    exec_unpackframe hlife Cfg.length_packFrame
  rw [Cfg.unpackFrame_packFrame hf hlen] at hunpack
  exact ⟨s.cfg.packFrame frame, exec_packframe hlife hlen, hunpack⟩

end Machine
end Sys2Proof
end

section
/-! The bit-plane encoder (42_bitplane_encoder.md): BIT, DUR and PLANEIDX, the data words of ENCODE bit by bit, and what
R177 and R178 conclude from them. -/

namespace Sys2Proof

/-! ### Planes and their weights (R171, R173, R174) -/

theorem BuildParams.planeIdx_lsbFirst {p : BuildParams} (h : p.planeOrder = .lsbFirst) (k : Nat) : p.planeIdx k = k := by
  rw [BuildParams.planeIdx, h]

theorem BuildParams.planeIdx_msbFirst {p : BuildParams} (h : p.planeOrder = .msbFirst) (k : Nat) :
    p.planeIdx k = p.depth - 1 - k := by
  rw [BuildParams.planeIdx, h]

theorem BuildParams.planeIdx_lt {p : BuildParams} {k : Nat} (hk : k < p.depth) : p.planeIdx k < p.depth := by
  cases ho : p.planeOrder with
  | lsbFirst => rwa [BuildParams.planeIdx_lsbFirst ho]
  | msbFirst =>
    rw [BuildParams.planeIdx_msbFirst ho]
    omega

/-- Either order of the planes goes through all of them. -/
theorem BuildParams.map_planeIdx_perm (p : BuildParams) :
    ((List.range p.depth).map p.planeIdx).Perm (List.range p.depth) := by
  cases ho : p.planeOrder with
  | lsbFirst =>
    rw [funext (BuildParams.planeIdx_lsbFirst ho), List.map_id']
  | msbFirst =>
    have hreverse : (List.range p.depth).reverse = (List.range p.depth).map fun k => p.depth - 1 - k := by
      rw [List.range_eq_range', List.reverse_range', ← List.range_eq_range', Nat.zero_add]
    rw [funext (BuildParams.planeIdx_msbFirst ho), ← hreverse]
    exact List.reverse_perm _

/-- The weights of the bits set among the low `n` add up to the number those bits spell. -/
theorem sum_map_range_testBit (v n : Nat) :
    ((List.range n).map fun i => if v.testBit i then 2 ^ i else 0).sum = v % 2 ^ n := by
  induction n with
  | zero => simp [Nat.mod_one]
  | succ n ih =>
    rw [List.range_succ, List.map_append, List.sum_append, ih, Nat.mod_pow_succ, ← Nat.toNat_testBit]
    cases hbit : v.testBit n <;> simp [hbit]

namespace Machine

variable {b i : Nat}

/-- BIT reads the intensity cut to its top `b` bits. -/
theorem planeBit_eq_testBit (v : Byte) : planeBit b v i = (v.toNat / 2 ^ (8 - b)).testBit i := by
  rw [Nat.testBit_div_two_pow, Nat.add_comm i]
  rfl

/-- R177 for one intensity: its planes' weights add up to its top `b` bits. -/
theorem sum_map_range_planeBit (hb : b ≤ 8) (v : Byte) :
    ((List.range b).map fun i => if planeBit b v i then 2 ^ i else 0).sum = v.toNat / 2 ^ (8 - b) := by
  have hfit : v.toNat / 2 ^ (8 - b) < 2 ^ b := by
    rw [Nat.div_lt_iff_lt_mul (Nat.two_pow_pos _), ← Nat.pow_add, Nat.add_sub_cancel' hb]
    exact v.isLt
  simp only [planeBit_eq_testBit]
  rw [sum_map_range_testBit, Nat.mod_eq_of_lt hfit]

theorem planeBit_zero : planeBit b 0 i = false := BitVec.getLsbD_zero

theorem planeBit_255 (hb : b ≤ 8) (hi : i < b) : planeBit b 255 i = true := by
  rw [planeBit, show (255 : Byte) = BitVec.allOnes 8 from rfl, BitVec.getLsbD_allOnes]
  exact decide_eq_true (by omega)

/-- Settles O27: below B each of the three answers with its function, and from B on its operand check fails. -/
theorem planeFunctions : Obligations.PlaneFunctions := by
  refine fun s e8 i => ⟨fun hi => ?below, fun hi => ?beyond⟩
  case below =>
    have hok {t} : guarded (decide (i < s.params.depth)) .badOperand t = .next t := if_pos (decide_eq_true hi)
    have hplane {n} (hn : s.params.planeIdx i = n) : exec (.planeidx i) s = .next { s with result := .nat n } :=
      hn ▸ hok
    exact ⟨hok, hok, fun ho => hplane (BuildParams.planeIdx_lsbFirst ho i),
      fun ho => hplane (BuildParams.planeIdx_msbFirst ho i)⟩
  case beyond =>
    have hbad {t} : guarded (decide (i < s.params.depth)) .badOperand t = .refused .badOperand :=
      guarded_of_false (decide_eq_false (Nat.not_lt.2 hi))
    exact ⟨hbad, hbad, hbad⟩

/-! ### Data words and DW (R172, 20_memory.md R67) -/

variable {cfg : Cfg} {u : List Byte} {a l c ch w : Nat}

theorem Cfg.dataWord_lt : cfg.dataWord b u i a c < 2 ^ cfg.ndata := orBits_lt _ _

theorem Cfg.testBit_dataWord_eq (j : Nat) : (cfg.dataWord b u i a c).testBit j = (decide (j < 3 * cfg.mux) &&
    planeBit b (byteAt u (fbAddr cfg.width (cfg.unmap a (j / 3) c).x (cfg.unmap a (j / 3) c).y (j % 3))) i) :=
  testBit_orBits _ _ j

/-- The bit of a lane and a channel is the plane bit of the pixel UNMAP gives for the lane. -/
theorem Cfg.testBit_dataWord (hl : l < cfg.mux) (hch : ch ≤ 2) :
    (cfg.dataWord b u i a c).testBit (3 * l + ch) =
      planeBit b (byteAt u (fbAddr cfg.width (cfg.unmap a l c).x (cfg.unmap a l c).y ch)) i := by
  have hlt : 3 * l + ch < 3 * cfg.mux := by omega
  have hdiv : (3 * l + ch) / 3 = l := by omega
  have hmod : (3 * l + ch) % 3 = ch := by omega
  rw [Cfg.testBit_dataWord_eq, hdiv, hmod, decide_eq_true hlt, Bool.true_and]

theorem Cfg.length_encodeFrame : (cfg.encodeFrame b u).length = b * cfg.nrows * cfg.width := by
  have hrow (i a : Nat) : ((List.range cfg.width).map fun c => cfg.dataWord b u i a c).length = cfg.width := by simp
  rw [Cfg.encodeFrame, length_flatMap_const _ _ (cfg.nrows * cfg.width), List.length_range, Nat.mul_assoc]
  intro i _
  rw [length_flatMap_const _ _ cfg.width fun a _ => hrow i a, List.length_range]

theorem Cfg.mem_encodeFrame : w ∈ cfg.encodeFrame b u ↔
    ∃ i < b, ∃ a < cfg.nrows, ∃ c < cfg.width, cfg.dataWord b u i a c = w := by
  simp only [Cfg.encodeFrame, List.mem_flatMap, List.mem_map, List.mem_range]

/-- While a frame is streamed DW holds the data words of U. -/
theorem State.Streamed.dwWord_eq {s : State} (h : s.Streamed) (hi : i < s.params.depth) (ha : a < s.cfg.nrows)
    (hc : c < s.cfg.width) : s.dwWord i a c = s.cfg.dataWord s.params.depth s.u i a c := by
  rw [State.dwWord, h.planes, List.getD_eq_getElem?_getD, Cfg.getElem?_encodeFrame _ _ _ _ _ _ hi ha hc]
  rfl

/-- Settles O28: DW is a list of the data words in the order of its index, and each is made of plane bits. -/
theorem encodeWritesTheBitPlanes : Obligations.EncodeWritesTheBitPlanes := by
  intro s u hlife hlen
  refine ⟨s.cfg.encodeFrame s.params.depth u, withInstance_of hlife (decide_eq_true hlen), Cfg.length_encodeFrame,
    fun i a c hi ha hc => ⟨_, Cfg.getElem?_encodeFrame _ _ _ _ _ _ hi ha hc, Cfg.dataWord_lt, ?_⟩⟩
  intro l ch x y hl hch hxy
  rw [Cfg.testBit_dataWord hl hch, hxy]
  rfl

/-- Settles O29: in whatever order the planes come, the hold times add up the weights of one intensity's plane bits. -/
theorem brightnessIsTheIntensity : Obligations.BrightnessIsTheIntensity := by
  intro s h hst a l c ch x y ha hl hc hch hxy
  set v := byteAt s.u (3 * (y * s.cfg.width + x) + ch)
  have hbit : ∀ i < s.params.depth, (s.dwWord i a c).testBit (3 * l + ch) = planeBit s.params.depth v i := by
    intro i hi
    rw [hst.dwWord_eq hi ha hc, Cfg.testBit_dataWord hl hch, hxy]
    rfl
  calc ((List.range s.params.depth).map fun k =>
          if (s.dwWord (s.params.planeIdx k) a c).testBit (3 * l + ch) then 2 ^ s.params.planeIdx k else 0).sum
    _ = ((List.range s.params.depth).map fun k =>
          if planeBit s.params.depth v (s.params.planeIdx k) then 2 ^ s.params.planeIdx k else 0).sum := by
      congr 1
      refine List.map_congr_left fun k hk => ?_
      rw [hbit _ (BuildParams.planeIdx_lt (List.mem_range.1 hk))]
    _ = (((List.range s.params.depth).map s.params.planeIdx).map fun i =>
          if planeBit s.params.depth v i then 2 ^ i else 0).sum := by
      rw [List.map_map]
      rfl
    _ = ((List.range s.params.depth).map fun i => if planeBit s.params.depth v i then 2 ^ i else 0).sum :=
      (s.params.map_planeIdx_perm.map _).sum_eq
    _ = v.toNat / 2 ^ (8 - s.params.depth) := sum_map_range_planeBit h.depth_le v

/-! ### All-black and all-white frames (R178) -/

theorem byteAt_of_forall_eq_zero (h : ∀ v ∈ u, v = 0) (n : Nat) : byteAt u n = 0 := by
  rw [byteAt, List.getD_eq_getElem?_getD]
  cases hn : u[n]? with
  | none => rfl
  | some v => exact h v (List.mem_of_getElem? hn)

theorem byteAt_of_forall_eq {v : Byte} {n : Nat} (h : ∀ x ∈ u, x = v) (hn : n < u.length) : byteAt u n = v := by
  rw [byteAt, List.getD_eq_getElem _ _ hn]
  exact h _ (List.getElem_mem hn)

theorem Cfg.dataWord_of_black (h : ∀ v ∈ u, v = 0) : cfg.dataWord b u i a c = 0 := by
  refine Nat.eq_of_testBit_eq fun j => ?_
  rw [Cfg.testBit_dataWord_eq, byteAt_of_forall_eq_zero h, planeBit_zero, Bool.and_false, Nat.zero_testBit]

/-- Every bit of a data word comes from a byte inside U. -/
theorem Cfg.dataWord_of_white {p : BuildParams} (hv : cfg.Valid p) (hb : b ≤ 8) (hlen : u.length = 3 * cfg.npix)
    (h : ∀ v ∈ u, v = 255) (hi : i < b) (ha : a < cfg.nrows) (hc : c < cfg.width) :
    cfg.dataWord b u i a c = 2 ^ cfg.ndata - 1 := by
  refine Nat.eq_of_testBit_eq fun j => ?_
  rw [Nat.testBit_two_pow_sub_one, Cfg.testBit_dataWord_eq, Cfg.ndata]
  by_cases hj : j < 3 * cfg.mux
  · have ⟨hx, hy⟩ := Cfg.unmap_lt hv.quarter_square hv.rows_divide ha (show j / 3 < cfg.mux by omega) hc
    have hin := fbAddr_lt hx hy (show j % 3 ≤ 2 by omega)
    rw [byteAt_of_forall_eq h (hlen ▸ hin), planeBit_255 hb hi, Bool.and_true]
  · rw [decide_eq_false hj, Bool.false_and]

end Machine

/-! ### Intensities that RGB565 rounds to zero (R142, R146) -/

theorem roundDiv_eq_zero_iff {x d : Nat} (hd : 0 < d) : roundDiv x d = 0 ↔ x + d / 2 < d :=
  Nat.div_eq_zero_iff_lt hd

namespace Machine

variable {n : FieldWidth} {cfg : Cfg} {frame : List Byte} {q : Nat}

theorem up_eq_zero_iff : up q n = 0 ↔ q = 0 := by
  have hpos := n.top_pos
  have hle := n.top_le
  rw [up_eq_roundDiv, roundDiv_eq_zero_iff hpos]
  omega

theorem down_eq_zero_iff {v : Nat} : down v n = 0 ↔ v * n.top ≤ 127 := by
  rw [down_eq_roundDiv, roundDiv_eq_zero_iff (by decide)]
  omega

theorem upByte_down_eq_zero_iff (v : Byte) : upByte (down v.toNat n) n = 0 ↔ v.toNat * n.top ≤ 127 := by
  have hlt := down_lt (n := n) (byte_toNat_le v)
  rw [← down_eq_zero_iff, ← up_eq_zero_iff (n := n), ← toNat_upByte hlt]
  exact (BitVec.toNat_eq (y := 0#8))

/-- A pixel comes out of RGB565 black exactly when no channel reaches level 1. -/
theorem unpack565_pack565_black_iff (p : Pixel) :
    (∀ v ∈ (unpack565 (pack565 p)).bytes, v = 0) ↔ p.r8.toNat ≤ 4 ∧ p.g8.toNat ≤ 2 ∧ p.b8.toNat ≤ 4 := by
  have hfive : FieldWidth.five.top = 31 := rfl
  have hsix : FieldWidth.six.top = 63 := rfl
  simp only [unpack565_pack565, Pixel.bytes, List.forall_mem_cons, upByte_down_eq_zero_iff, hfive, hsix,
    List.not_mem_nil, false_imp_iff, implies_true, and_true]
  omega

theorem Cfg.unpackPixel_packFrame_rgb565 (hf : cfg.format = .rgb565) (hq : q < cfg.npix) :
    cfg.unpackPixel (cfg.packFrame frame) q = unpack565 (pack565 (pixelAt frame q)) := by
  have hbyte {j : Nat} (hj : j < 2) := Cfg.byteAt_packFrame_rgb565 (frame := frame) hf hq hj
  have hlow := hbyte (j := 0) (by decide)
  rw [Nat.add_zero] at hlow
  rw [Cfg.unpackPixel_rgb565 hf, hlow, hbyte (by decide)]
  exact congrArg unpack565 (le16_bytesLe16 _)

/-- Settles O30: a data word of a black U has no bit set and one of a white U has all of them, and U's pixels are the
frame's own after DOWN and UP. -/
theorem blackAndWhiteFrames : Obligations.BlackAndWhiteFrames := by
  refine fun c p u frame hv hb => ⟨fun hblack w hw => ?black, fun hlen hwhite w hw => ?white, fun hf => ?rgb565⟩
  case black =>
    obtain ⟨i, -, a, -, x, -, rfl⟩ := Cfg.mem_encodeFrame.1 hw
    exact Cfg.dataWord_of_black hblack
  case white =>
    obtain ⟨i, hi, a, ha, x, hx, rfl⟩ := Cfg.mem_encodeFrame.1 hw
    exact Cfg.dataWord_of_white hv hb hlen hwhite hi ha hx
  case rgb565 =>
    simp only [Cfg.unpackFrame, List.forall_mem_flatMap, List.mem_range]
    refine forall₂_congr fun q hq => ?_
    rw [Cfg.unpackPixel_packFrame_rgb565 hf hq, unpack565_pack565_black_iff]
    rfl

end Machine
end Sys2Proof
end

section
/-! The line writes of a step (43_output_scheduler.md R197 to R200): each micro-step makes the write of its PHASE, and a step
whose writes are answered ok makes all of them. -/

namespace Sys2Proof.Machine

variable {s t : State}

/-! ### The frame a step streams is taken before its first write -/

/-- The state whose data a step at PHASE 0 writes: at a cycle start the one SCHED.TAKE leaves (R198, R199). -/
def State.taken (s : State) : State := if s.atCycleStart then s.take else s

/-- The take writes ACTIVE, the mailbox, the derived buffers and DISPLAYED only. -/
theorem State.taken_eq (s : State) : ∃ active pending pk u dw displayed,
    s.taken = { s with active := active, pending := pending, pk := pk, u := u, dw := dw, displayed := displayed } := by
  unfold State.taken
  split
  · cases hv : s.pending.valid
    · exact ⟨_, _, _, _, _, _, State.take_empty hv⟩
    · exact ⟨_, _, _, _, _, _, State.take_full hv⟩
  · exact ⟨_, _, _, _, _, _, rfl⟩

@[simp] theorem State.taken_params (s : State) : s.taken.params = s.params := by
  obtain ⟨_, _, _, _, _, _, h⟩ := s.taken_eq
  rw [h]

@[simp] theorem State.taken_cfg (s : State) : s.taken.cfg = s.cfg := by
  obtain ⟨_, _, _, _, _, _, h⟩ := s.taken_eq
  rw [h]

@[simp] theorem State.taken_fsm (s : State) : s.taken.fsm = s.fsm := by
  obtain ⟨_, _, _, _, _, _, h⟩ := s.taken_eq
  rw [h]

@[simp] theorem State.taken_row (s : State) : s.taken.row = s.row := by
  obtain ⟨_, _, _, _, _, _, h⟩ := s.taken_eq
  rw [h]

@[simp] theorem State.taken_k (s : State) : s.taken.k = s.k := by
  obtain ⟨_, _, _, _, _, _, h⟩ := s.taken_eq
  rw [h]

@[simp] theorem State.taken_phase (s : State) : s.taken.phase = s.phase := by
  obtain ⟨_, _, _, _, _, _, h⟩ := s.taken_eq
  rw [h]

@[simp] theorem State.taken_trace (s : State) : s.taken.trace = s.trace := by
  obtain ⟨_, _, _, _, _, _, h⟩ := s.taken_eq
  rw [h]

theorem State.answerAt_taken (s : State) (n : Nat) : s.taken.answerAt n = s.answerAt n := by
  obtain ⟨_, _, _, _, _, _, h⟩ := s.taken_eq
  rw [h]
  exact State.answerAt_congr rfl rfl rfl n

theorem State.Inv.frameTaken_taken (h : s.Inv) (hf : s.fsm ≠ .idle) : s.taken.FrameTaken := by
  unfold State.taken
  split
  · exact h.frameTaken_take hf
  · rename_i hstart
    exact h.frameTaken hf (by simpa using hstart)

theorem State.taken_active_frame (s : State) : s.taken.active.frame = s.frameShown := by
  unfold State.taken State.frameShown
  cases s.atCycleStart with
  | false => rfl
  | true =>
    cases hv : s.pending.valid
    · rw [if_pos rfl, State.take_empty hv]
      rfl
    · rw [if_pos rfl, State.take_full hv]
      rfl

/-! ### The write of each PHASE -/

/-- The TRACE entry of the write at a PHASE of the step in progress, answered ok. -/
def State.entryAt (s : State) (phase : Nat) : TraceEntry := ⟨s.cfg.lineWord (s.sigAt phase), s.durAt phase, .ok⟩

theorem State.stepTrace_eq_map_entryAt (s : State) :
    s.stepTrace = (List.range (2 * s.cfg.width + 3)).map s.entryAt := rfl

theorem State.sigAt_zero (s : State) : s.sigAt 0 = ⟨false, false, s.row, 0⟩ := rfl

theorem State.sigAt_data {p : Nat} (hp : p < 2 * s.cfg.width + 1) (hodd : p % 2 = 1) :
    s.sigAt p = ⟨false, false, s.row, s.dwWord s.plane s.row ((p - 1) / 2)⟩ := by
  rw [State.sigAt, if_neg (by omega), if_pos hp, hodd]
  rfl

theorem State.sigAt_clock {p : Nat} (hp : p < 2 * s.cfg.width + 1) (heven : p % 2 = 0) (hpos : p ≠ 0) :
    s.sigAt p = ⟨true, false, s.row, s.dwWord s.plane s.row ((p - 1) / 2)⟩ := by
  rw [State.sigAt, if_neg hpos, if_pos hp, heven]
  rfl

theorem State.sigAt_latch (s : State) : s.sigAt (2 * s.cfg.width + 1) = ⟨false, true, s.row, 0⟩ := by
  rw [State.sigAt, if_neg (by omega), if_neg (by omega), if_pos rfl]

theorem State.sigAt_hold (s : State) : s.sigAt (2 * s.cfg.width + 2) = ⟨false, false, s.row, 0⟩ := by
  rw [State.sigAt, if_neg (by omega), if_neg (by omega), if_neg (by omega)]

theorem State.durAt_hold (s : State) : s.durAt (2 * s.cfg.width + 2) = 2 ^ s.plane := if_pos rfl

theorem State.durAt_of_ne {p : Nat} (hp : p ≠ 2 * s.cfg.width + 2) : s.durAt p = s.params.tSetup := if_neg hp

/-- Every micro-step is guarded by the selection of itself. -/
theorem microStep_of_selects {i : Instr} (hsel : s.selects i = true)
    (hexec : exec i s = guarded (s.selects i) .notSelected t) : microStep s = .next t := by
  rw [microStep_of_selected (State.selects_iff.1 hsel), hexec, hsel, guarded_true]

theorem microStep_select (hf : s.fsm = .streamingFrame) (hp : s.phase = 0) :
    microStep s = .next (s.taken.writeOrTrap (s.taken.sigAt 0) (s.taken.durAt 0) State.nextPhase) := by
  rw [State.sigAt_zero, State.durAt_of_ne (by omega), State.taken_row, State.taken_params]
  exact microStep_of_selects (State.selects_schedSelect.2 ⟨hf, hp⟩) rfl

/-- The writes between the select and the hold: data and clock of each column, and the latch. -/
theorem microStep_within (hf : s.fsm = .streamingFrame) (hpos : s.phase ≠ 0) (hp : s.phase < 2 * s.cfg.width + 2) :
    microStep s = .next (s.writeOrTrap (s.sigAt s.phase) (s.durAt s.phase) State.nextPhase) := by
  rw [State.durAt_of_ne (by omega)]
  by_cases hcolumn : s.phase < 2 * s.cfg.width + 1
  · rcases Nat.mod_two_eq_zero_or_one s.phase with heven | hodd
    · rw [State.sigAt_clock hcolumn heven hpos]
      exact microStep_of_selects (State.selects_schedClock.2 ⟨hf, hcolumn, heven, hpos⟩) rfl
    · rw [State.sigAt_data hcolumn hodd]
      exact microStep_of_selects (State.selects_schedData.2 ⟨hf, hcolumn, hodd⟩) rfl
  · have hlatch : s.phase = 2 * s.cfg.width + 1 := by omega
    rw [hlatch, State.sigAt_latch]
    exact microStep_of_selects (State.selects_schedLatch.2 ⟨hf, hlatch⟩) rfl

theorem microStep_hold (hf : s.fsm = .streamingFrame) (hp : s.phase = 2 * s.cfg.width + 2) :
    microStep s = .next (s.writeOrTrap (s.sigAt s.phase) (s.durAt s.phase) fun t => t.goto .rowAdvance) := by
  rw [hp, State.sigAt_hold, State.durAt_hold]
  exact microStep_of_selects (State.selects_schedHold.2 ⟨hf, hp⟩) rfl

/-! ### A step whose writes are all answered ok -/

theorem microSteps_succ_of_next {n : Nat} (h : microStep s = .next t) : microSteps (n + 1) s = microSteps n t := by
  rw [microSteps, h, andThen_next]

/-- From inside a step to its end: the writes from this PHASE to the hold, one answer for each. -/
theorem exists_microSteps_to_hold {n : Nat} (hf : s.fsm = .streamingFrame) (hpos : s.phase ≠ 0)
    (hn : s.phase + n = 2 * s.cfg.width + 2) (hok : s.DeviceOk (n + 1)) :
    ∃ as fa,
      microSteps (n + 1) s = .next { s with
        answers := as, freeAnswers := fa, out := s.sigAt (2 * s.cfg.width + 2), fsm := .rowAdvance,
        phase := 2 * s.cfg.width + 2, trace := s.trace ++ (List.range' s.phase (n + 1)).map s.entryAt } ∧
      ∀ m, State.answerAt { s with answers := as, freeAnswers := fa } m = s.answerAt (m + (n + 1)) := by
  induction n generalizing s with
  | zero =>
    have hp : s.phase = 2 * s.cfg.width + 2 := hn
    obtain ⟨as, fa, hwrite, hanswers⟩ := State.writeOrTrap_answerOk (hok 0 (Nat.zero_lt_succ _)) (s.sigAt s.phase)
      (s.durAt s.phase) fun t => t.goto .rowAdvance
    refine ⟨as, fa, ?_, hanswers⟩
    rw [microSteps_succ_of_next ((microStep_hold hf hp).trans (congrArg _ hwrite)), ← hp]
    rfl
  | succ n ih =>
    obtain ⟨as, fa, hwrite, hanswers⟩ := State.writeOrTrap_answerOk (hok 0 (Nat.zero_lt_succ _)) (s.sigAt s.phase)
      (s.durAt s.phase) State.nextPhase
    have hstep := (microStep_within hf hpos (by omega)).trans (congrArg _ hwrite)
    obtain ⟨as', fa', hrun, hanswers'⟩ := ih
      (s := State.nextPhase { s with answers := as, freeAnswers := fa, out := s.sigAt s.phase,
                                     trace := s.trace ++ [s.entryAt s.phase] })
      hf (Nat.succ_ne_zero _) ((Nat.succ_add_eq_add_succ ..).trans hn)
      fun m hm => (hanswers m).trans (hok (m + 1) (Nat.succ_lt_succ hm))
    refine ⟨as', fa', ?_, fun m => (hanswers' m).trans (hanswers _)⟩
    rw [List.range'_succ, List.map_cons, List.append_cons]
    exact (microSteps_succ_of_next hstep).trans hrun

/-- A whole step: from PHASE 0, and through the take at a cycle start, its `2*WIDTH + 3` writes. -/
theorem exists_microSteps_whole_step (hf : s.fsm = .streamingFrame) (hp : s.phase = 0)
    (hok : s.DeviceOk (2 * s.cfg.width + 3)) :
    ∃ as fa,
      microSteps (2 * s.cfg.width + 3) s = .next { s.taken with
        answers := as, freeAnswers := fa, out := s.taken.sigAt (2 * s.cfg.width + 2), fsm := .rowAdvance,
        phase := 2 * s.cfg.width + 2, trace := s.trace ++ s.taken.stepTrace } ∧
      ∀ m, State.answerAt { s.taken with answers := as, freeAnswers := fa } m =
        s.answerAt (m + (2 * s.cfg.width + 3)) := by
  have hanswer0 : s.taken.answerAt 0 = .ok := (s.answerAt_taken 0).trans (hok 0 (Nat.zero_lt_succ _))
  obtain ⟨as, fa, hwrite, hanswers⟩ := State.writeOrTrap_answerOk hanswer0 (s.taken.sigAt 0) (s.taken.durAt 0)
    State.nextPhase
  have hstep := (microStep_select hf hp).trans (congrArg _ hwrite)
  have hphase : s.taken.phase + 1 = 1 := by rw [State.taken_phase, hp]
  obtain ⟨as', fa', hrun, hanswers'⟩ := exists_microSteps_to_hold (n := 2 * s.cfg.width + 1)
    (s := State.nextPhase { s.taken with answers := as, freeAnswers := fa, out := s.taken.sigAt 0,
                                         trace := s.taken.trace ++ [s.taken.entryAt 0] })
    (s.taken_fsm.trans hf) (Nat.succ_ne_zero _)
    (show s.taken.phase + 1 + (2 * s.cfg.width + 1) = 2 * s.taken.cfg.width + 2 by rw [hphase, State.taken_cfg]; omega)
    fun m hm => (hanswers m).trans ((s.answerAt_taken _).trans (hok (m + 1) (Nat.succ_lt_succ hm)))
  refine ⟨as', fa', ?_, fun m => (hanswers' m).trans ((hanswers _).trans (s.answerAt_taken _))⟩
  have htrace : s.trace ++ s.taken.stepTrace = s.taken.trace ++ [s.taken.entryAt 0] ++
      (List.range' (s.taken.phase + 1) (2 * s.cfg.width + 1 + 1)).map s.taken.entryAt := by
    rw [State.stepTrace_eq_map_entryAt, State.taken_cfg, List.range_eq_range', List.range'_succ, List.map_cons,
      List.append_cons, hphase, State.taken_trace]
  refine (microSteps_succ_of_next hstep).trans (hrun.trans ?_)
  rw [htrace, ← s.taken_cfg]
  rfl

end Sys2Proof.Machine
end

section
/-! The step record in TRACE (43_output_scheduler.md R207) and what it depends on (42_bitplane_encoder.md R176): a step's
writes give back the row, the plane, the data words and the hold time, and those come from the frame. -/

namespace Sys2Proof.Machine

variable {c : Cfg} {s s' : State}

/-! ### Fields of a line word, read back (30_encoding.md R96) -/

theorem Cfg.dataOf_lineWord {sig : Sig} (haddr : sig.addr < 2 ^ c.nAddr) (hdata : sig.data < 2 ^ c.ndata) :
    c.dataOf (c.lineWord sig) = sig.data := by
  rw [Cfg.dataOf, Cfg.lineWord_eq_nested haddr hdata, Nat.add_mul_mod_self_right, Nat.mod_eq_of_lt hdata]

theorem Cfg.addrOf_lineWord {sig : Sig} (haddr : sig.addr < 2 ^ c.nAddr) (hdata : sig.data < 2 ^ c.ndata) :
    c.addrOf (c.lineWord sig) = sig.addr := by
  rw [Cfg.addrOf, Cfg.lineWord_eq_nested haddr hdata, Nat.add_mul_div_right _ _ (Nat.two_pow_pos _),
    Nat.div_eq_of_lt hdata, Nat.zero_add, Nat.add_mul_mod_self_right, Nat.mod_eq_of_lt haddr]

/-! ### Recovery of one step -/

/-- Writes that complete a step give its record, and recovery begins again after them. -/
theorem Cfg.recoverFrom_append {writes new rest : List TraceEntry} (hok : ∀ e ∈ new, e.status = .ok) (hne : new ≠ [])
    (hlen : writes.length + new.length = 2 * c.width + 3) :
    c.recoverFrom writes (new ++ rest) = c.recordOf (writes ++ new) :: c.recover rest := by
  induction new generalizing writes with
  | nil => exact absurd rfl hne
  | cons e new ih =>
    rw [List.cons_append, Cfg.recoverFrom, if_pos (hok e List.mem_cons_self)]
    cases new with
    | nil => exact if_pos hlen
    | cons e' new =>
      simp only [List.length_cons] at hlen
      rw [if_neg (by omega), List.append_cons writes e (e' :: new)]
      refine ih (fun x hx => hok x (List.mem_cons_of_mem _ hx)) (List.cons_ne_nil _ _) ?_
      simp only [List.length_append, List.length_cons, List.length_nil]
      omega

theorem State.length_stepTrace (s : State) : s.stepTrace.length = 2 * s.cfg.width + 3 := by
  rw [State.stepTrace_eq_map_entryAt, List.length_map, List.length_range]

theorem State.status_of_mem_stepTrace {e : TraceEntry} (he : e ∈ s.stepTrace) : e.status = .ok := by
  rw [State.stepTrace_eq_map_entryAt, List.mem_map] at he
  obtain ⟨p, -, rfl⟩ := he
  rfl

theorem State.recover_stepTrace_append (s : State) (rest : List TraceEntry) :
    s.cfg.recover (s.stepTrace ++ rest) = s.cfg.recordOf s.stepTrace :: s.cfg.recover rest :=
  have hlen := s.length_stepTrace
  Cfg.recoverFrom_append (writes := []) (fun _ => State.status_of_mem_stepTrace)
    (List.ne_nil_of_length_pos (by omega)) ((Nat.zero_add _).trans hlen)

theorem State.recover_stepTrace (s : State) : s.cfg.recover s.stepTrace = [s.cfg.recordOf s.stepTrace] :=
  (congrArg s.cfg.recover (List.append_nil _).symm).trans (s.recover_stepTrace_append [])

theorem State.getD_stepTrace {p : Nat} (hp : p < 2 * s.cfg.width + 3) (e : TraceEntry) :
    s.stepTrace.getD p e = s.entryAt p := by
  rw [List.getD_eq_getElem _ _ (by rwa [State.length_stepTrace])]
  simp [State.stepTrace_eq_map_entryAt]

/-- The record of a step is read back from its writes (R207). -/
theorem State.recordOf_stepTrace (hrow : s.row < s.cfg.nrows) (hst : s.Streamed) :
    s.cfg.recordOf s.stepTrace = s.stepRecord s.row s.k := by
  have hselect : s.cfg.addrOf (s.entryAt 0).lw = s.row := Cfg.addrOf_lineWord hrow (Nat.two_pow_pos _)
  have hhold : (s.entryAt (2 * s.cfg.width + 2)).dur = 2 ^ s.plane := s.durAt_hold
  have hword : ∀ x < s.cfg.width, s.cfg.dataOf (s.entryAt (1 + 2 * x)).lw = s.dwWord s.plane s.row x := by
    intro x hx
    have hcolumn : (1 + 2 * x - 1) / 2 = x := by omega
    rw [State.entryAt, State.sigAt_data (by omega) (by omega), hcolumn]
    exact Cfg.dataOf_lineWord hrow (hst.dwWord_lt _ _ _)
  rw [Cfg.recordOf, State.stepRecord]
  simp only [State.getD_stepTrace (Nat.succ_pos _), State.getD_stepTrace (Nat.lt_succ_self _), hselect, hhold,
    Nat.log2_two_pow]
  congr 1
  refine List.map_congr_left fun x hx => ?_
  have hx := List.mem_range.1 hx
  rw [State.getD_stepTrace (by omega), hword x hx]
  rfl

/-! ### The frame determines the writes -/

/-- DW is made of the frame by PACK, UNPACK and ENCODE (41_pixel_formats.md R141). -/
theorem State.Streamed.dw_eq (h : s.Streamed) :
    s.dw = s.cfg.encodeFrame s.params.depth (s.cfg.unpackFrame (s.cfg.packFrame s.active.frame)) := by
  rw [h.planes, h.unpacked, h.packed]

theorem State.Streamed.stepRecord_eq_frameRecord {a k : Nat} (h : s.Streamed) (ha : a < s.cfg.nrows)
    (hk : k < s.params.depth) : s.stepRecord a k = s.cfg.frameRecord s.params s.active.frame a k := by
  rw [State.stepRecord, Cfg.frameRecord, ← h.packed, ← h.unpacked]
  congr 1
  exact List.map_congr_left fun x hx => h.dwWord_eq (BuildParams.planeIdx_lt hk) ha (List.mem_range.1 hx)

/-- A step's writes are a function of the position, CFG, the build parameters and DW. -/
theorem State.stepTrace_congr (hcfg : s.cfg = s'.cfg) (hparams : s.params = s'.params) (hrow : s.row = s'.row)
    (hk : s.k = s'.k) (hdw : s.dw = s'.dw) : s.stepTrace = s'.stepTrace := by
  simp only [State.stepTrace, State.sigAt, State.durAt, State.plane, State.dwWord, hcfg, hparams, hrow, hk, hdw]

/-- Settles O47: after the take DW is made of the frame shown, and from there the writes depend on nothing else. -/
theorem stepRecordsDependOnTheFrameOnly : Obligations.StepRecordsDependOnTheFrameOnly := by
  intro s s' h h' hf hf' hp hp' hrow hk hcfg hparams hframe hok hok'
  obtain ⟨as, fa, hrun, -⟩ := exists_microSteps_whole_step hf hp hok
  obtain ⟨as', fa', hrun', -⟩ := exists_microSteps_whole_step hf' hp' (hcfg ▸ hok')
  have hst := (h.frameTaken_taken (by simp [hf])).streamed
  have hst' := (h'.frameTaken_taken (by simp [hf'])).streamed
  have hdw : s.taken.dw = s'.taken.dw := by
    rw [hst.dw_eq, hst'.dw_eq]
    simp only [State.taken_cfg, State.taken_params, State.taken_active_frame, hcfg, hparams, hframe]
  have htrace : s'.taken.stepTrace = s.taken.stepTrace :=
    (State.stepTrace_congr (by simp [hcfg]) (by simp [hparams]) (by simp [hrow]) (by simp [hk]) hdw).symm
  have hrow_lt : s.taken.row < s.taken.cfg.nrows := by simpa using h.row_lt
  have hk_lt : s.taken.k < s.taken.params.depth := by simpa using h.k_lt
  have hrecord := s.taken.recover_stepTrace
  rw [State.recordOf_stepTrace hrow_lt hst, hst.stepRecord_eq_frameRecord hrow_lt hk_lt] at hrecord
  refine ⟨_, _, s.taken.stepTrace, hrun, hcfg ▸ hrun', rfl, congrArg (s'.trace ++ ·) htrace, ?_⟩
  simpa only [State.taken_cfg, State.taken_params, State.taken_row, State.taken_k, State.taken_active_frame]
    using hrecord

end Sys2Proof.Machine
end

section
/-! The line write and the scheduler's micro-steps (43_output_scheduler.md R195 to R205): what each does, field by field. -/

namespace Sys2Proof.Machine

variable {s t : State}

/-! ### The device's answer to a line write (R195, R196) -/

theorem State.lineWrite_ok {as : List Answer} (h : s.answers = .ok :: as) (sig : Sig) (dur : Nat) :
    s.lineWrite sig dur =
      (.ok, { s with answers := as, out := sig, trace := s.trace ++ [⟨s.cfg.lineWord sig, dur, .ok⟩] }) := by
  rw [State.lineWrite, State.takeAnswer_of h]
  rfl

theorem State.lineWrite_fail {as : List Answer} (h : s.answers = .fail :: as) (sig : Sig) (dur : Nat) :
    s.lineWrite sig dur =
      (.fail, { s with answers := as, trace := s.trace ++ [⟨s.cfg.lineWord sig, dur, .fail⟩] }) := by
  rw [State.lineWrite, State.takeAnswer_of h]
  rfl

theorem exec_lineWrite {sig : Sig} (hf : s.fsm = .streamingFrame) (haddr : sig.addr < 2 ^ s.cfg.nAddr)
    (hdata : sig.data < 2 ^ s.cfg.ndata) (dur : Nat) : exec (.lineWrite sig dur) s =
      .next ((s.lineWrite sig dur).2.answer (.answer (s.lineWrite sig dur).1)) :=
  (if_pos hf).trans (if_pos (Cfg.sigFits_of_lt haddr hdata))

/-- Settles O31: the answer is the first of the list, and a line write has one case for each. -/
theorem lineWriteFollowsTheAnswer : Obligations.LineWriteFollowsTheAnswer := by
  intro s sig dur rest hf haddr hdata
  rw [exec_lineWrite hf haddr hdata]
  refine ⟨fun hok => ?_, fun hfail => ?_⟩
  · rw [State.lineWrite_ok hok]
    rfl
  · rw [State.lineWrite_fail hfail]
    rfl

/-- The state with other answers to come. -/
def State.withAnswers (s : State) (as : List Answer) (n : Nat) : State := { s with answers := as, freeAnswers := n }

/-- The next answer, and what is left after it, are those of the state with `as` and `n` instead. -/
def State.AnswersAs (s : State) (as : List Answer) (n : Nat) : Prop := (s.withAnswers as n).takeAnswer = s.takeAnswer

theorem State.answersAs_of_rest {a : Answer} (h : s.answers = []) (hrest : s.answersRest = some a) :
    s.AnswersAs [a] s.freeAnswers := by
  have hs : s.takeAnswer = (a, s) := by simp only [State.takeAnswer, h, hrest]
  rw [State.AnswersAs, hs, State.takeAnswer_of rfl, ← h]
  rfl

theorem State.answersAs_of_free (h : s.answers = []) (hrest : s.answersRest = none) :
    s.AnswersAs [Config.freeAnswer s.freeAnswers] (s.freeAnswers + 1) := by
  have hs : s.takeAnswer = (Config.freeAnswer s.freeAnswers, { s with freeAnswers := s.freeAnswers + 1 }) := by
    simp only [State.takeAnswer, h, hrest]
  rw [State.AnswersAs, hs, State.takeAnswer_of rfl, ← h]
  rfl

/-- The take does not ask the device. -/
theorem State.take_answers (s : State) : s.take.answers = s.answers ∧ s.take.answersRest = s.answersRest ∧
    s.take.freeAnswers = s.freeAnswers := by
  cases hv : s.pending.valid
  · rw [State.take_empty hv]
    exact ⟨rfl, rfl, rfl⟩
  · rw [State.take_full hv]
    exact ⟨rfl, rfl, rfl⟩

theorem State.take_withAnswers (s : State) (as : List Answer) (n : Nat) :
    (s.withAnswers as n).take = s.take.withAnswers as n := by
  cases hv : s.pending.valid
  · rw [State.take_empty hv, State.take_empty (s := s.withAnswers as n) hv]
    rfl
  · rw [State.take_full hv, State.take_full (s := s.withAnswers as n) hv]
    rfl

theorem State.lineWrite_withAnswers {as : List Answer} {n : Nat} (h : s.AnswersAs as n) (sig : Sig) (dur : Nat) :
    (s.withAnswers as n).lineWrite sig dur = s.lineWrite sig dur := by
  have hanswer : (s.withAnswers as n).takeAnswer = s.takeAnswer := h
  simp only [State.lineWrite, hanswer]

theorem State.writeOrTrap_withAnswers {as : List Answer} {n : Nat} (h : s.AnswersAs as n) (sig : Sig) (dur : Nat)
    (f : State → State) : (s.withAnswers as n).writeOrTrap sig dur f = s.writeOrTrap sig dur f := by
  simp only [State.writeOrTrap, State.lineWrite_withAnswers h]

/-- A writing operation asks for one answer, after the take if there is one. -/
theorem exec_withAnswers {i : Instr} {as : List Answer} {n : Nat} (hs : s.AnswersAs as n) (htake : s.take.AnswersAs as n)
    (hi : i = .schedSelect ∨ i = .schedData ∨ i = .schedClock ∨ i = .schedLatch ∨ i = .schedHold ∨
      ∃ sig dur, i = .lineWrite sig dur) : exec i (s.withAnswers as n) = exec i s := by
  have hwrite (sig dur f) := congrArg (guarded (s.selects i) .notSelected) (State.writeOrTrap_withAnswers hs sig dur f)
  rcases hi with rfl | rfl | rfl | rfl | rfl | ⟨sig, dur, rfl⟩
  · refine congrArg (guarded (s.selects .schedSelect) .notSelected) ?_
    change (if s.atCycleStart then (s.withAnswers as n).take else s.withAnswers as n).writeOrTrap _ _ _ = _
    split
    · rw [State.take_withAnswers]
      exact State.writeOrTrap_withAnswers htake _ _ _
    · exact State.writeOrTrap_withAnswers hs _ _ _
  · exact hwrite _ _ _
  · exact hwrite _ _ _
  · exact hwrite _ _ _
  · exact hwrite _ _ _
  · simp only [exec, execLineWrite, State.lineWrite_withAnswers hs]
    rfl

/-- Settles O32: past the list the next answer is the one named for the rest or the free one, and listing it changes neither
the answer nor what is left after it. -/
theorem answersPastTheListAreTheOracles : Obligations.AnswersPastTheListAreTheOracles := by
  intro s i hnil hi
  obtain ⟨htake, htakeRest, htakeFree⟩ := s.take_answers
  refine ⟨fun a hrest => ?rest, fun hrest => ?free⟩
  case rest =>
    have hlisted := State.answersAs_of_rest (htake.trans hnil) (htakeRest.trans hrest)
    rw [htakeFree] at hlisted
    exact (exec_withAnswers (State.answersAs_of_rest hnil hrest) hlisted hi).symm
  case free =>
    have hlisted := State.answersAs_of_free (htake.trans hnil) (htakeRest.trans hrest)
    rw [htakeFree] at hlisted
    exact (exec_withAnswers (State.answersAs_of_free hnil hrest) hlisted hi).symm

/-! ### Start and take (R199, R205) -/

theorem State.startEnabled_iff :
    s.startEnabled = true ↔ s.life = .constructed ∧ s.pending.valid = true ∧ s.stopreq = false := by
  simp [State.startEnabled, and_assoc]

theorem State.selected_idle (hidle : s.fsm = .idle) :
    s.selected = if s.startEnabled then some .schedStart else none := by
  simp only [State.selected, selectMicroStep, hidle]

/-- The micro-step that the position selects is not refused. -/
theorem exec_of_selects {i : Instr} (hsel : s.selects i = true)
    (hexec : exec i s = guarded (s.selects i) .notSelected t) : exec i s = .next t := by
  rw [hexec, hsel, guarded_true]

/-- Settles O33: in Idle the position selects SCHED.START when it is enabled, and nothing else. -/
theorem startLeavesIdle : Obligations.StartLeavesIdle := by
  intro s hidle
  refine ⟨fun hen => ?_, fun hdis => ?_⟩
  · have hstart := State.startEnabled_iff.2 hen
    have hsel := State.selects_schedStart.2 ⟨hidle, hstart⟩
    exact ⟨State.selects_iff.1 hsel, exec_of_selects hsel rfl⟩
  · rw [State.selected_idle hidle, if_neg (mt State.startEnabled_iff.1 hdis)]

theorem exec_schedTake (hstart : s.atCycleStart = true) : exec .schedTake s = .next s.take := if_pos hstart

/-- Settles O34: the take has one case for an empty mailbox and one for a waiting frame. -/
theorem takeAtTheCycleStart : Obligations.TakeAtTheCycleStart := by
  intro s hf hrow hk hp
  rw [exec_schedTake (State.atCycleStart_iff.2 ⟨hf, hrow, hk, hp⟩)]
  exact ⟨fun hempty => congrArg _ (State.take_empty hempty), fun hfull => congrArg _ (State.take_full hfull)⟩

/-! ### The writes (R197 to R200) -/

/-- A write between the select and the hold, answered ok. -/
theorem exec_within_ok {i : Instr} {as : List Answer} (hsel : s.selects i = true) (hf : s.fsm = .streamingFrame)
    (hpos : s.phase ≠ 0) (hp : s.phase < 2 * s.cfg.width + 2) (hok : s.answers = .ok :: as) :
    exec i s = .next { s with answers := as, out := s.sigAt s.phase, phase := s.phase + 1,
                              trace := s.trace ++ [⟨s.cfg.lineWord (s.sigAt s.phase), s.params.tSetup, .ok⟩] } := by
  rw [← microStep_of_selected (State.selects_iff.1 hsel), microStep_within hf hpos hp, State.writeOrTrap_ok hok,
    State.durAt_of_ne hp.ne]
  rfl

theorem State.taken_of_not_start (hstart : s.atCycleStart = false) : s.taken = s := if_neg (by simp [hstart])

theorem State.taken_of_start (hstart : s.atCycleStart = true) : s.taken = s.take := if_pos hstart

@[simp] theorem State.taken_answers (s : State) : s.taken.answers = s.answers := by
  obtain ⟨_, _, _, _, _, _, h⟩ := s.taken_eq
  rw [h]

theorem exec_select_ok {as : List Answer} (hf : s.fsm = .streamingFrame) (hp : s.phase = 0)
    (hok : s.answers = .ok :: as) :
    exec .schedSelect s = .next { s.taken with
      answers := as, out := ⟨false, false, s.row, 0⟩, phase := 1,
      trace := s.trace ++ [⟨s.cfg.lineWord ⟨false, false, s.row, 0⟩, s.params.tSetup, .ok⟩] } := by
  have hsel := State.selects_schedSelect.2 ⟨hf, hp⟩
  have hphase : s.taken.phase + 1 = 1 := by rw [State.taken_phase, hp]
  rw [← microStep_of_selected (State.selects_iff.1 hsel), microStep_select hf hp,
    State.writeOrTrap_ok (s.taken_answers.trans hok), State.sigAt_zero, State.durAt_of_ne (by omega)]
  simp only [State.nextPhase, hphase, State.taken_row, State.taken_params, State.taken_cfg, State.taken_trace]

/-- Settles O35: each write is the row of the table at its PHASE. -/
theorem writesFollowThePhaseTable : Obligations.WritesFollowThePhaseTable := by
  intro s rest hf hok
  refine ⟨fun hp hpos => ?select, fun t hp hrow hk ht => ?start, fun c d hc hd => ⟨fun hp => ?data, fun hp => ?clock⟩,
    fun hp => ?latch⟩
  case select =>
    have hstart : s.atCycleStart = false :=
      Bool.eq_false_iff.2 fun h => hpos ⟨(State.atCycleStart_iff.1 h).2.1, (State.atCycleStart_iff.1 h).2.2.1⟩
    rw [exec_select_ok hf hp hok, State.taken_of_not_start hstart]
  case start =>
    have hstart := State.atCycleStart_iff.2 ⟨hf, hrow, hk, hp⟩
    rw [exec_schedTake hstart] at ht
    cases ht
    rw [exec_select_ok hf hp hok, State.taken_of_start hstart, hrow]
  case data =>
    have hsel := State.selects_schedData.2 ⟨hf, (by omega : s.phase < 2 * s.cfg.width + 1), by omega⟩
    have hcolumn : (s.phase - 1) / 2 = c := by omega
    have hnext : s.phase + 1 = 2 + 2 * c := by omega
    rw [exec_within_ok hsel hf (by omega) (by omega) hok, State.sigAt_data (by omega) (by omega), hcolumn, hnext, hd]
    rfl
  case clock =>
    have hsel := State.selects_schedClock.2 ⟨hf, (by omega : s.phase < 2 * s.cfg.width + 1), by omega, by omega⟩
    have hcolumn : (s.phase - 1) / 2 = c := by omega
    have hnext : s.phase + 1 = 3 + 2 * c := by omega
    rw [exec_within_ok hsel hf (by omega) (by omega) hok, State.sigAt_clock (by omega) (by omega) (by omega), hcolumn,
      hnext, hd]
    rfl
  case latch =>
    rw [exec_within_ok (State.selects_schedLatch.2 ⟨hf, hp⟩) hf (by omega) (by omega) hok, hp, State.sigAt_latch]

/-- Settles O36: the hold is the last row of the table, and from it the scheduler goes to RowAdvance. -/
theorem holdCarriesTheWeight : Obligations.HoldCarriesTheWeight := by
  intro s rest hf hp hok
  rw [exec_of_selects (State.selects_schedHold.2 ⟨hf, hp⟩) rfl, State.writeOrTrap_ok hok]
  rfl

/-! ### The two advances and the entries into Idle (R201, R202, R204) -/

theorem exec_schedRowadv (hf : s.fsm = .rowAdvance) : exec .schedRowadv s =
    .next { s with row := if s.k + 1 = s.params.depth then (s.row + 1) % s.cfg.nrows else s.row,
                   fsm := .planeAdvance } :=
  exec_of_selects (State.selects_schedRowadv.2 hf) rfl

theorem exec_schedPlaneadv (hf : s.fsm = .planeAdvance) : exec .schedPlaneadv s =
    .next (if s.stopreq then s.nextPlane.stopEntry else s.nextPlane.goto .streamingFrame) :=
  exec_of_selects (State.selects_schedPlaneadv.2 hf) rfl

/-- Settles O37: the row goes on exactly after the last plane. -/
theorem rowAdvanceMicroStep : Obligations.RowAdvanceMicroStep := by
  intro s hf
  rw [exec_schedRowadv hf]
  refine ⟨fun hlast => ?_, fun hmore => ?_⟩
  · rw [if_pos hlast]
    rfl
  · rw [if_neg hmore]

/-- Settles O38: STOPREQ decides between the next plane and the stop entry. -/
theorem planeAdvanceMicroStep : Obligations.PlaneAdvanceMicroStep := by
  intro s hf
  rw [exec_schedPlaneadv hf]
  refine ⟨fun hgo => ?_, fun hstop => ?_⟩
  · rw [if_neg (by simp [hgo])]
    rfl
  · rw [if_pos hstop, State.stopEntry_eq]
    rfl

theorem State.atStopEntry_iff : s.atStopEntry = true ↔ s.fsm = .planeAdvance ∧ s.stopreq = true := by
  simp [State.atStopEntry]

/-- Settles O40: each is behind the guard that its place is, and is the shared operation the micro-steps call. -/
theorem entriesAndForcedWrite : Obligations.EntriesAndForcedWrite := by
  refine fun s => ⟨fun hf hstop => ?stop, fun hf => ?trap, fun hplace => ?force⟩
  case stop => exact (if_pos (State.atStopEntry_iff.2 ⟨hf, hstop⟩)).trans (congrArg _ s.stopEntry_eq)
  case trap => exact (if_pos (decide_eq_true hf)).trans (congrArg _ s.deviceErrorEntry_eq)
  case force =>
    have hguard : (decide (s.fsm = .streamingFrame) || s.atStopEntry) = true := by
      rwa [Bool.or_eq_true, decide_eq_true_eq, State.atStopEntry_iff]
    exact if_pos hguard

end Sys2Proof.Machine
end

section
/-! The lines between two micro-steps (43_output_scheduler.md R197, R208) and the scheduler's state graph (R191, R206): what
one micro-step drives and where it leads, and what the host leaves alone. -/

namespace Sys2Proof.Machine

variable {s t : State}

/-! ### One line write of the step in progress -/

/-- The write of this PHASE, answered ok, has led from `s` to `t`. -/
structure State.WroteTo (s t : State) : Prop where
  out : t.out = s.taken.sigAt s.phase
  next : s.phase < 2 * s.cfg.width + 2 ∧ t.fsm = .streamingFrame ∧ t.phase = s.phase + 1 ∨
    s.phase = 2 * s.cfg.width + 2 ∧ t.fsm = .rowAdvance
  sigAt : t.sigAt = s.taken.sigAt
  u : t.u = s.taken.u

/-- A write of this PHASE goes on if going on from the driven lines does, or it ends in the DeviceError entry. -/
theorem State.writeOrTrap_wroteTo {sig : Sig} {dur : Nat} {f : State → State}
    (hok : ∀ as n tr, s.WroteTo (f { s.taken with answers := as, freeAnswers := n, out := sig, trace := tr })) :
    s.WroteTo (s.taken.writeOrTrap sig dur f) ∨
      (s.taken.writeOrTrap sig dur f).fsm = .idle ∧ (s.taken.writeOrTrap sig dur f).errflag = true := by
  obtain ⟨as, n, hw | hw⟩ := s.taken.writeOrTrap_cases sig dur f
  · rw [hw]
    exact .inl (hok as n _)
  · rw [hw]
    exact .inr ⟨rfl, rfl⟩

theorem State.taken_of_phase (hp : s.phase ≠ 0) : s.taken = s :=
  State.taken_of_not_start (Bool.eq_false_iff.2 fun hstart => hp (State.atCycleStart_iff.1 hstart).2.2.2)

/-- In StreamingFrame a micro-step makes the write of its PHASE and goes on, or ends in Idle with the error latched. -/
theorem microStep_streaming (hf : s.fsm = .streamingFrame) (hle : s.phase ≤ 2 * s.cfg.width + 2) :
    ∃ t, microStep s = .next t ∧ (s.WroteTo t ∨ t.fsm = .idle ∧ t.errflag = true) := by
  rcases hle.lt_or_eq with hlt | hhold
  · have hmicro : microStep s =
        .next (s.taken.writeOrTrap (s.taken.sigAt s.phase) (s.taken.durAt s.phase) State.nextPhase) := by
      by_cases hp : s.phase = 0
      · rw [hp]
        exact microStep_select hf hp
      · rw [State.taken_of_phase hp]
        exact microStep_within hf hp hlt
    exact ⟨_, hmicro, State.writeOrTrap_wroteTo fun _ _ _ =>
      ⟨rfl, .inl ⟨hlt, s.taken_fsm.trans hf, congrArg (· + 1) s.taken_phase⟩, rfl, rfl⟩⟩
  · have hmicro : microStep s = .next (s.taken.writeOrTrap (s.taken.sigAt s.phase) (s.taken.durAt s.phase)
        fun t => t.goto .rowAdvance) := by
      rw [State.taken_of_phase (by omega)]
      exact microStep_hold hf hhold
    exact ⟨_, hmicro, State.writeOrTrap_wroteTo fun _ _ _ => ⟨rfl, .inr ⟨hhold, rfl⟩, rfl, rfl⟩⟩

theorem microStep_rowAdvance (hf : s.fsm = .rowAdvance) : microStep s =
    .next { s with row := if s.k + 1 = s.params.depth then (s.row + 1) % s.cfg.nrows else s.row,
                   fsm := .planeAdvance } :=
  (microStep_of_selected (State.selects_iff.1 (State.selects_schedRowadv.2 hf))).trans (exec_schedRowadv hf)

theorem microStep_planeAdvance (hf : s.fsm = .planeAdvance) : microStep s =
    .next (if s.stopreq then s.nextPlane.stopEntry else s.nextPlane.goto .streamingFrame) :=
  (microStep_of_selected (State.selects_iff.1 (State.selects_schedPlaneadv.2 hf))).trans (exec_schedPlaneadv hf)

/-! ### The state graph (R191, R206) -/

theorem State.exists_selected (hf : s.fsm ≠ .idle) (hle : s.phase ≤ 2 * s.cfg.width + 2) : ∃ i, s.selected = some i := by
  refine Option.ne_none_iff_exists'.1 fun hnone => ?_
  unfold State.selected selectMicroStep at hnone
  cases hfsm : s.fsm with
  | idle => exact hf hfsm
  | streamingFrame =>
    simp only [hfsm] at hnone
    split_ifs at hnone
    omega
  | rowAdvance => simp [hfsm] at hnone
  | planeAdvance => simp [hfsm] at hnone

/-- Settles O44: a position in range selects a micro-step, and each state of the scheduler has its own successors. -/
theorem schedulerIsFreeRunning : Obligations.SchedulerIsFreeRunning := by
  intro s h hf
  obtain ⟨i, hsel⟩ := State.exists_selected hf h.phase_le
  refine ⟨i, ?_⟩
  cases hfsm : s.fsm with
  | idle => exact absurd hfsm hf
  | streamingFrame =>
    obtain ⟨t, ht, hnext⟩ := microStep_streaming hfsm h.phase_le
    refine ⟨t, hsel, ht, fun _ => ?_, nofun, nofun⟩
    rcases hnext with hwrote | hidle
    · rcases hwrote.next with ⟨-, hgo⟩ | ⟨hhold, hadvance⟩
      · exact .inl hgo
      · exact .inr (.inl ⟨hadvance, hhold⟩)
    · exact .inr (.inr hidle)
  | rowAdvance => exact ⟨_, hsel, microStep_rowAdvance hfsm, nofun, fun _ => rfl, nofun⟩
  | planeAdvance =>
    refine ⟨_, hsel, microStep_planeAdvance hfsm, nofun, nofun, fun _ => ⟨fun hgo => ?_, fun hstop => ?_⟩⟩
    · rw [if_neg (by simp [hgo])]
      rfl
    · rw [if_pos hstop]
      rfl

/-! ### The lines follow the table (R197) -/

/-- A record with clock, latch and data low. -/
def Sig.Low (sig : Sig) : Prop := sig.clk = false ∧ sig.lat = false ∧ sig.data = 0

theorem State.linesFollow_of_low (hlow : Sig.Low s.out) (hp : s.fsm = .streamingFrame → s.phase = 0) : s.LinesFollow :=
  ⟨fun hf hpos => absurd (hp hf) hpos, fun _ => hlow⟩

theorem State.WroteTo.linesFollow (hwrote : s.WroteTo t) : t.LinesFollow := by
  rcases hwrote.next with ⟨-, hf, hp⟩ | ⟨hhold, hf⟩
  · refine ⟨fun _ _ => ?_, by simp [hf, hp]⟩
    rw [hwrote.out, hp, hwrote.sigAt, Nat.add_sub_cancel]
  · refine State.linesFollow_of_low ?_ (by simp [hf])
    rw [hwrote.out, hhold, ← s.taken_cfg, State.sigAt_hold]
    exact ⟨rfl, rfl, rfl⟩

theorem microStep_keeps_lines (h : s.Inv) (hlines : s.LinesFollow) (ht : microStep s = .next t) : t.LinesFollow := by
  cases hf : s.fsm with
  | idle =>
    cases hen : s.startEnabled
    · rw [microStep_of_selected_none (by rw [State.selected_idle hf, hen]; rfl)] at ht
      cases ht
      exact hlines
    · have hsel := State.selects_schedStart.2 ⟨hf, hen⟩
      rw [microStep_of_selected (State.selects_iff.1 hsel), exec_of_selects hsel rfl] at ht
      cases ht
      refine State.linesFollow_of_low ?_ fun _ => (h.idle_position hf).2.2
      rw [State.goto_out, h.idle_lines hf]
      exact ⟨rfl, rfl, rfl⟩
  | streamingFrame =>
    obtain ⟨t', ht', hwrote | ⟨hidle, -⟩⟩ := microStep_streaming hf h.phase_le
    · cases ht'.symm.trans ht
      exact hwrote.linesFollow
    · cases ht'.symm.trans ht
      exact State.linesFollow_of_idle hidle
  | rowAdvance =>
    rw [microStep_rowAdvance hf] at ht
    cases ht
    exact State.linesFollow_of_low (hlines.between (.inr (.inl hf))) nofun
  | planeAdvance =>
    rw [microStep_planeAdvance hf] at ht
    cases ht
    split
    · exact State.linesFollow_of_idle rfl
    · exact State.linesFollow_of_low (hlines.between (.inr (.inr hf))) fun _ => rfl

/-! ### What the host leaves alone -/

/-- The step in progress, its table and the lines are the same. -/
def State.SameStep (s t : State) : Prop := t.fsm = s.fsm ∧ t.phase = s.phase ∧ t.out = s.out ∧ t.sigAt = s.sigAt

theorem State.LinesFollow.of_sameStep (h : s.LinesFollow) (hst : s.SameStep t) : t.LinesFollow := by
  obtain ⟨hfsm, hphase, hout, hsigAt⟩ := hst
  refine ⟨?_, ?_⟩
  · rw [hfsm, hphase, hout, hsigAt]
    exact h.within
  · rw [hfsm, hphase, hout]
    exact h.between

theorem State.sameStep_reportError (s : State) : s.SameStep s.reportError := by
  unfold State.reportError
  split <;> exact ⟨rfl, rfl, rfl, rfl⟩

theorem sameStep_of_guarded {ok : Bool} {why : Refusal} {t' : State} (ht : guarded ok why t' = .next t)
    (hkept : s.SameStep t') : s.SameStep t := by
  obtain ⟨-, rfl⟩ := guarded_next ht
  exact hkept

/-- CONSTRUCT returns an error and changes RESULT, or leaves the scheduler in Idle. -/
theorem execConstruct_sameStep_or_idle {fbW fbH : Nat} {width height : Int} {nAddr : Nat} {orient : Orient}
    {mirror : Bool} {pin : PinoutArg} {cs : Nat}
    (ht : execConstruct fbW fbH width height nAddr orient mirror pin cs s = .next t) : s.SameStep t ∨ t.fsm = .idle := by
  unfold execConstruct at ht
  split at ht
  · cases ht
  · split at ht
    · cases ht
      exact .inl ⟨rfl, rfl, rfl, rfl⟩
    · split at ht
      · cases ht
        exact .inl ⟨rfl, rfl, rfl, rfl⟩
      · obtain ⟨-, rfl⟩ := guarded_next ht
        exact .inr rfl

theorem execShow_sameStep (ht : execShow s = .next t) : s.SameStep t := by
  unfold execShow at ht
  split at ht
  · cases ht
  · split at ht
    · cases ht
      exact s.sameStep_reportError
    · exact sameStep_of_guarded ht ⟨rfl, rfl, rfl, rfl⟩

theorem execStopReq_sameStep (ht : execStopReq s = .next t) : s.SameStep t :=
  sameStep_of_guarded ht ⟨rfl, rfl, rfl, rfl⟩

theorem execStopAck_sameStep (ht : execStopAck s = .next t) : s.SameStep t :=
  sameStep_of_guarded ht s.endInstance.sameStep_reportError

theorem execFbwrite_sameStep {x y ch : Nat} {v : Byte} (ht : execFbwrite x y ch v s = .next t) : s.SameStep t := by
  unfold execFbwrite at ht
  split at ht
  · cases ht
  · exact sameStep_of_guarded ht ⟨rfl, rfl, rfl, rfl⟩

theorem execFbread_sameStep {x y ch : Nat} (ht : execFbread x y ch s = .next t) : s.SameStep t := by
  unfold execFbread at ht
  split at ht
  · cases ht
  · exact sameStep_of_guarded ht ⟨rfl, rfl, rfl, rfl⟩

/-- Nothing that can stand in the host's program touches the step in progress. -/
theorem exec_sameStep_or_idle_of_encode {i : Instr} (hi : (encode i).isSome) (ht : exec i s = .next t) :
    s.SameStep t ∨ t.fsm = .idle := by
  cases i
  case construct => exact execConstruct_sameStep_or_idle ht
  case showFrame => exact .inl (execShow_sameStep ht)
  case stopReq => exact .inl (execStopReq_sameStep ht)
  case poll => exact .inl (sameStep_of_guarded ht s.sameStep_reportError)
  case fbwrite => exact .inl (execFbwrite_sameStep ht)
  case fbread => exact .inl (execFbread_sameStep ht)
  case cmdReserved6 => cases ht
  case cmdReserved7 => cases ht
  case fmtPix888 | fmtRgb565 | fmtRgb888 | fmtRgb888packed | enumErr | enumFsm =>
    cases ht
    exact .inl ⟨rfl, rfl, rfl, rfl⟩
  all_goals cases hi

/-- Settles O4: the scheduler's turn drives the record of its PHASE, and no other turn moves the step in progress. -/
theorem stepKeepsTheLines : Obligations.StepKeepsTheLines := by
  intro s t h hlines ht
  have hturn {program turns freeTurns} :
      State.LinesFollow { s with program := program, turns := turns, freeTurns := freeTurns } :=
    hlines.of_sameStep ⟨rfl, rfl, rfl, rfl⟩
  obtain ⟨ts, n, hmicro | ⟨i, p, rest, -, -, hdec, hexec⟩ | hack | hreq | (rfl | rfl) | ⟨-, w, height, rfl⟩⟩ :=
    step_cases ht
  · exact microStep_keeps_lines h.of_inputs_histories_result hturn hmicro
  · rcases exec_sameStep_or_idle_of_encode (decode_coded hdec) hexec with hsame | hidle
    · exact hturn.of_sameStep hsame
    · exact State.linesFollow_of_idle hidle
  · exact hturn.of_sameStep (execStopAck_sameStep hack)
  · exact hturn.of_sameStep (execStopReq_sameStep hreq)
  · exact hturn
  · exact hturn
  · exact hlines.of_sameStep ⟨rfl, rfl, rfl, rfl⟩

/-! ### The levels of the lines within a cycle (R208) -/

theorem State.sigAt_addr (s : State) (p : Nat) : (s.sigAt p).addr = s.row := by
  unfold State.sigAt
  split_ifs <;> rfl

theorem State.sigAt_clk_iff {p : Nat} : (s.sigAt p).clk = true ↔ p ≠ 0 ∧ p < 2 * s.cfg.width + 1 ∧ p % 2 = 0 := by
  unfold State.sigAt
  split_ifs with hzero hcolumn
  · simp [hzero]
  · simp [hzero, hcolumn]
  · simp [hcolumn]
  · simp [hcolumn]

/-- With the clock high the latch is low and the data is that of the write before (R208 (a), (b)). -/
theorem State.sigAt_of_clk {p : Nat} (hclk : (s.sigAt p).clk = true) :
    (s.sigAt p).lat = false ∧ (s.sigAt (p - 1)).data = (s.sigAt p).data := by
  obtain ⟨hpos, hlt, heven⟩ := State.sigAt_clk_iff.1 hclk
  have hcolumn : (p - 1 - 1) / 2 = (p - 1) / 2 := by omega
  rw [State.sigAt_clock hlt heven hpos, State.sigAt_data (by omega) (by omega), hcolumn]
  exact ⟨rfl, rfl⟩

/-- Under an all-zero U every data word is 0 (R208 (f)). -/
theorem State.Streamed.sigAt_data_of_black (hst : s.Streamed) (hblack : ∀ v ∈ s.u, v = 0) (p : Nat) :
    (s.sigAt p).data = 0 := by
  have hword (i a c : Nat) : s.dwWord i a c = 0 := by
    rw [State.dwWord, List.getD_eq_getElem?_getD, hst.planes]
    cases hw : (s.cfg.encodeFrame s.params.depth s.u)[s.cfg.dwIndex i a c]? with
    | none => rfl
    | some w =>
      obtain ⟨_, -, _, -, _, -, rfl⟩ := Cfg.mem_encodeFrame.1 (List.mem_of_getElem? hw)
      exact Cfg.dataWord_of_black hblack
  unfold State.sigAt
  split_ifs
  · rfl
  · exact hword _ _ _
  · rfl
  · rfl

/-- Before the write of a PHASE past the select the lines carry the write before it. -/
theorem State.LinesFollow.out_of_phase (hlines : s.LinesFollow) (hf : s.fsm = .streamingFrame) (hp : s.phase ≠ 0) :
    s.out = s.taken.sigAt (s.phase - 1) := by
  rw [State.taken_of_phase hp]
  exact hlines.within hf hp

theorem Fsm.advance_of_running {f : Fsm} (hrun : f ≠ .idle) (hf : f ≠ .streamingFrame) :
    f = .rowAdvance ∨ f = .planeAdvance := by
  cases f with
  | idle => exact absurd rfl hrun
  | streamingFrame => exact absurd rfl hf
  | rowAdvance => exact .inl rfl
  | planeAdvance => exact .inr rfl

/-- The advances write no line, unless a stop is taken. -/
theorem microStep_advance (hf : s.fsm = .rowAdvance ∨ s.fsm = .planeAdvance) (ht : microStep s = .next t)
    (hrun : t.fsm ≠ .idle) :
    t.out = s.out ∧ (s.selected = some .schedRowadv ∨ s.selected = some .schedPlaneadv) := by
  rcases hf with hf | hf
  · rw [microStep_rowAdvance hf] at ht
    cases ht
    exact ⟨rfl, .inl (State.selects_iff.1 (State.selects_schedRowadv.2 hf))⟩
  · rw [microStep_planeAdvance hf] at ht
    cases ht
    split at hrun
    · exact absurd rfl hrun
    · rename_i hgo
      rw [if_neg hgo]
      exact ⟨rfl, .inr (State.selects_iff.1 (State.selects_schedPlaneadv.2 hf))⟩

/-- Settles O45: a write's record is a row of the table and the lines before it carry the row before; the advances leave the
lines as the hold left them. -/
theorem lineLevelsWithinACycle : Obligations.LineLevelsWithinACycle := by
  intro s t h hlines hrun ht hrun'
  by_cases hf : s.fsm = .streamingFrame
  · obtain ⟨t', ht', hwrote | ⟨hidle, -⟩⟩ := microStep_streaming hf h.phase_le
    swap
    · cases ht'.symm.trans ht
      exact absurd hidle hrun'
    cases ht'.symm.trans ht
    rw [hwrote.out, hwrote.u]
    refine ⟨fun hboth => ?both, fun hdata => ?data, fun haddr => ?addr, fun hsel => ?hold, fun hblack _ _ => ?black⟩
    case both =>
      obtain ⟨hclk, hlat⟩ := hboth
      exact nomatch (State.sigAt_of_clk hclk).1.symm.trans hlat
    case data =>
      refine Bool.eq_false_iff.2 fun hclk => hdata ?_
      obtain ⟨hpos, -⟩ := State.sigAt_clk_iff.1 hclk
      rw [hlines.out_of_phase hf hpos, (State.sigAt_of_clk hclk).2]
    case addr =>
      have hp : s.phase = 0 := by
        by_contra hp
        rw [hlines.out_of_phase hf hp, State.sigAt_addr, State.sigAt_addr] at haddr
        exact haddr rfl
      rw [hp, State.sigAt_zero, State.taken_row]
      exact ⟨State.selects_iff.1 (State.selects_schedSelect.2 ⟨hf, hp⟩), rfl⟩
    case hold =>
      obtain ⟨-, hp⟩ := State.selects_schedHold.1 (State.selects_iff.2 hsel)
      rw [hp, ← s.taken_cfg, State.sigAt_hold, State.taken_row]
    case black => exact (h.frameTaken_taken hrun).streamed.sigAt_data_of_black hblack _
  · have hadvance : s.fsm = .rowAdvance ∨ s.fsm = .planeAdvance := Fsm.advance_of_running hrun hf
    obtain ⟨hout, hsel⟩ := microStep_advance hadvance ht hrun'
    obtain ⟨hclk, -, -⟩ := hlines.between (.inr hadvance)
    rw [hout]
    refine ⟨fun hboth => ?both, fun hdata => absurd rfl hdata, fun haddr => absurd rfl haddr, fun hhold => ?hold,
      fun _ hrow hplane => ?black⟩
    case both => exact nomatch hclk.symm.trans hboth.1
    case hold => rcases hsel with hsel | hsel <;> exact nomatch hsel.symm.trans hhold
    case black => exact (hsel.elim hrow hplane).elim

end Sys2Proof.Machine
end

section
/-! A refresh cycle whose writes are all answered ok (43_output_scheduler.md R193, R203, R207): it is the steps of every row and
plane in order, and its totals are the sums of theirs. -/

namespace Sys2Proof.Machine

variable {s t : State}

/-! ### A step and its two advances -/

/-- Settles O41: the run of a whole step says what each field is after it. -/
theorem stepWritesItsTable : Obligations.StepWritesItsTable := by
  intro s s1 hf hp hok htake hkept
  have htaken : s.taken = s1 := by
    cases hstart : s.atCycleStart
    · rw [State.taken_of_not_start hstart, hkept hstart]
    · have hnext := htake hstart
      rw [exec_schedTake hstart] at hnext
      cases hnext
      exact State.taken_of_start hstart
  obtain ⟨as, fa, hrun, -⟩ := exists_microSteps_whole_step hf hp hok
  rw [← htaken]
  exact ⟨_, hrun, rfl, rfl, s.taken_row, s.taken_k, rfl, rfl⟩

theorem microSteps_add_of_next {m : Nat} (h : microSteps m s = .next t) (n : Nat) :
    microSteps (m + n) s = microSteps n t := by
  rw [microSteps_add, h, andThen_next]

/-- RowAdvance and PlaneAdvance without a stop: the next plane, and after the last one the next row. -/
theorem microSteps_advances (hf : s.fsm = .rowAdvance) (hgo : s.stopreq = false) : microSteps 2 s =
    .next { s with row := if s.k + 1 = s.params.depth then (s.row + 1) % s.cfg.nrows else s.row,
                   k := (s.k + 1) % s.params.depth, phase := 0, fsm := .streamingFrame } := by
  rw [microSteps_succ_of_next (microStep_rowAdvance hf), microSteps_succ_of_next (microStep_planeAdvance rfl),
    if_neg (by simp [hgo])]
  rfl

@[simp] theorem State.taken_stopreq (s : State) : s.taken.stopreq = s.stopreq := by
  obtain ⟨_, _, _, _, _, _, h⟩ := s.taken_eq
  rw [h]

/-- The state at the start of step `i` of a cycle, rows outside and planes inside (R193): the same data at another
position. -/
def State.atStep (s : State) (i : Nat) : State :=
  { s with row := i / s.params.depth % s.cfg.nrows, k := i % s.params.depth, phase := 0 }

theorem succ_mod_eq (i b : Nat) : (i + 1) % b = (i % b + 1) % b := (Nat.mod_add_mod i b 1).symm

/-- The row goes on after the last plane. -/
theorem succ_div_mod_eq {b : Nat} (hb : 0 < b) (i r : Nat) :
    (i + 1) / b % r = if i % b + 1 = b then (i / b % r + 1) % r else i / b % r := by
  have hdvd : b ∣ i + 1 ↔ i % b + 1 = b := by
    have hlt := Nat.mod_lt i hb
    rw [Nat.dvd_iff_mod_eq_zero, succ_mod_eq]
    refine ⟨fun h => ?_, fun h => by rw [h, Nat.mod_self]⟩
    by_contra hne
    rw [Nat.mod_eq_of_lt (by omega)] at h
    omega
  rw [Nat.succ_div]
  simp only [hdvd]
  split
  · exact (Nat.mod_add_mod _ _ _).symm
  · rfl

/-- The start of step `i` after some line writes: only the lines, TRACE and the answers still to come tell it from
`s.atStep i`. -/
def State.afterWrites (s : State) (i : Nat) (as : List Answer) (fa : Nat) (out : Sig) (trace : List TraceEntry) : State :=
  { s.atStep i with answers := as, freeAnswers := fa, out := out, trace := trace }

/-- Step `i`, from its select to the start of the next step. -/
theorem exists_microSteps_step {i : Nat} (hf : s.fsm = .streamingFrame) (hp : s.phase = 0) (hgo : s.stopreq = false)
    (hdepth : 0 < s.params.depth) (hrow : s.row = i / s.params.depth % s.cfg.nrows) (hk : s.k = i % s.params.depth)
    (hok : s.DeviceOk (2 * s.cfg.width + 3)) :
    ∃ as fa out,
      microSteps (2 * s.cfg.width + 5) s =
        .next (s.taken.afterWrites (i + 1) as fa out (s.trace ++ (s.taken.atStep i).stepTrace)) ∧
      ∀ m, (s.taken.withAnswers as fa).answerAt m = s.answerAt (m + (2 * s.cfg.width + 3)) := by
  obtain ⟨as, fa, hrun, hanswers⟩ := exists_microSteps_whole_step hf hp hok
  have hrow' : s.taken.row = (s.taken.atStep i).row := by simpa [State.atStep] using hrow
  have hk' : s.taken.k = (s.taken.atStep i).k := by simpa [State.atStep] using hk
  have htrace : s.taken.stepTrace = (s.taken.atStep i).stepTrace := State.stepTrace_congr rfl rfl hrow' hk' rfl
  rw [htrace] at hrun
  refine ⟨as, fa, s.taken.sigAt (2 * s.cfg.width + 2), ?_, hanswers⟩
  refine (microSteps_add_of_next hrun 2).trans ?_
  refine (microSteps_advances rfl ?_).trans ?_
  · exact s.taken_stopreq.trans hgo
  simp only [State.afterWrites, State.atStep, State.taken_row, State.taken_k, State.taken_params,
    State.taken_cfg, State.taken_fsm, hf, hrow, hk, succ_mod_eq i, succ_div_mod_eq hdepth]

/-! ### The steps of a cycle -/

/-- The writes of the first `n` steps of a cycle that streams the data of `s`. -/
def State.cycleTrace (s : State) (n : Nat) : List TraceEntry := (List.range n).flatMap fun i => (s.atStep i).stepTrace

theorem State.cycleTrace_succ (s : State) (n : Nat) : s.cycleTrace (n + 1) = s.cycleTrace n ++ (s.atStep n).stepTrace := by
  simp [State.cycleTrace, List.range_succ]

/-- Past its first step and before its end a cycle is not at a cycle start. -/
theorem State.atCycleStart_atStep {i : Nat} (hpos : i ≠ 0) (hi : i < s.cfg.nrows * s.params.depth) :
    (s.atStep i).atCycleStart = false := by
  refine Bool.eq_false_iff.2 fun hstart => ?_
  obtain ⟨-, hrow, hk, -⟩ := State.atCycleStart_iff.1 hstart
  change i / s.params.depth % s.cfg.nrows = 0 at hrow
  change i % s.params.depth = 0 at hk
  rw [Nat.mod_eq_of_lt (Nat.div_lt_of_lt_mul (by rwa [Nat.mul_comm]))] at hrow
  have hdiv := Nat.div_add_mod i s.params.depth
  rw [hrow, hk] at hdiv
  exact hpos hdiv.symm

/-- From a cycle start through its first `n + 1` steps. -/
theorem exists_microSteps_steps {n : Nat} (hstart : s.atCycleStart = true) (hgo : s.stopreq = false)
    (hdepth : 0 < s.params.depth) (hn : n + 1 ≤ s.cfg.nrows * s.params.depth)
    (hok : s.DeviceOk ((n + 1) * (2 * s.cfg.width + 3))) :
    ∃ as fa out,
      microSteps ((n + 1) * (2 * s.cfg.width + 5)) s =
        .next (s.taken.afterWrites (n + 1) as fa out (s.trace ++ s.taken.cycleTrace (n + 1))) ∧
      ∀ m, (s.taken.withAnswers as fa).answerAt m = s.answerAt (m + (n + 1) * (2 * s.cfg.width + 3)) := by
  obtain ⟨hf, hrow, hk, hp⟩ := State.atCycleStart_iff.1 hstart
  induction n with
  | zero =>
    rw [Nat.zero_add, Nat.one_mul] at hok
    rw [Nat.zero_add, Nat.one_mul, Nat.one_mul, State.cycleTrace_succ]
    exact exists_microSteps_step (i := 0) hf hp hgo hdepth (by simp [hrow]) (by simp [hk]) hok
  | succ n ih =>
    obtain ⟨as, fa, out, hrun, hanswers⟩ :=
      ih (by omega) fun m hm => hok m (hm.trans_le (Nat.mul_le_mul_right _ (Nat.le_succ _)))
    rw [Nat.succ_mul (n + 1)] at hok
    rw [Nat.succ_mul (n + 1), Nat.succ_mul (n + 1), microSteps_add_of_next hrun, State.cycleTrace_succ _ (n + 1),
      ← List.append_assoc]
    generalize s.trace ++ s.taken.cycleTrace (n + 1) = trace
    have hlater : (s.taken.afterWrites (n + 1) as fa out trace).taken = s.taken.afterWrites (n + 1) as fa out trace :=
      State.taken_of_not_start (State.atCycleStart_atStep (s := s.taken) (Nat.succ_ne_zero n) (by simpa using hn))
    have hcfg : (s.taken.afterWrites (n + 1) as fa out trace).cfg = s.cfg := s.taken_cfg
    have hstep := exists_microSteps_step (s := s.taken.afterWrites (n + 1) as fa out trace) (i := n + 1)
      (s.taken_fsm.trans hf) rfl (s.taken_stopreq.trans hgo) (hdepth.trans_eq (congrArg _ s.taken_params.symm)) rfl rfl
    rw [hlater, hcfg] at hstep
    obtain ⟨as', fa', out', hrun', hanswers'⟩ :=
      hstep fun m hm => (hanswers m).trans (hok _ ((Nat.add_comm _ _).trans_lt (Nat.add_lt_add_left hm _)))
    exact ⟨as', fa', out', hrun', fun m =>
      (hanswers' m).trans ((hanswers _).trans
        (congrArg s.answerAt (by rw [Nat.add_assoc, Nat.add_comm (2 * _ + 3)])))⟩

/-! ### The totals of a step -/

theorem sum_map_const {α : Type} (l : List α) (c : Nat) : (l.map fun _ => c).sum = l.length * c := by
  rw [List.map_const', List.sum_const_nat]

theorem State.sum_dur_stepTrace (s : State) :
    (s.stepTrace.map TraceEntry.dur).sum = 2 ^ s.plane + (2 * s.cfg.width + 2) * s.params.tSetup := by
  have hdur : (List.range (2 * s.cfg.width + 2)).map s.durAt =
      (List.range (2 * s.cfg.width + 2)).map fun _ => s.params.tSetup :=
    List.map_congr_left fun p hp => State.durAt_of_ne (List.mem_range.1 hp).ne
  have hmap : s.stepTrace.map TraceEntry.dur = (List.range (2 * s.cfg.width + 3)).map s.durAt := by
    rw [State.stepTrace_eq_map_entryAt, List.map_map]
    rfl
  rw [hmap, List.range_succ, List.map_append, List.sum_append, hdur, List.map_singleton, List.sum_singleton,
    State.durAt_hold, sum_map_const, List.length_range, Nat.add_comm]

/-- Among the PHASEs of a step there is one with the clock high for each column. -/
theorem countP_clock_phase (w : Nat) :
    (List.range (2 * w + 3)).countP (fun p => decide (p ≠ 0 ∧ p < 2 * w + 1 ∧ p % 2 = 0)) = w := by
  have hcolumns : ∀ n ≤ w,
      (List.range (2 * n + 1)).countP (fun p => decide (p ≠ 0 ∧ p < 2 * w + 1 ∧ p % 2 = 0)) = n := by
    intro n hn
    induction n with
    | zero => simp
    | succ n ih =>
      rw [show 2 * (n + 1) + 1 = 2 * n + 1 + 1 + 1 by omega, List.range_succ, List.range_succ, List.countP_append,
        List.countP_append, ih (by omega), List.countP_singleton, List.countP_singleton, if_neg (by simp),
        if_pos (by simp; omega)]
  rw [List.range_succ, List.range_succ, List.countP_append, List.countP_append, hcolumns w le_rfl, List.countP_singleton,
    List.countP_singleton, if_neg (by simp), if_neg (by simp)]
  rfl

theorem State.countP_clk_stepTrace (hrow : s.row < s.cfg.nrows) (hst : s.Streamed) :
    s.stepTrace.countP (fun e => e.lw.testBit (s.cfg.ndata + s.cfg.nAddr + 1)) = s.cfg.width := by
  have hclk (p : Nat) : (s.entryAt p).lw.testBit (s.cfg.ndata + s.cfg.nAddr + 1) = (s.sigAt p).clk := by
    refine Cfg.testBit_lineWord_clk ?_ ?_
    · rw [State.sigAt_addr]
      exact hrow
    · unfold State.sigAt
      split_ifs
      · exact Nat.two_pow_pos _
      · exact hst.dwWord_lt _ _ _
      · exact Nat.two_pow_pos _
      · exact Nat.two_pow_pos _
  rw [State.stepTrace_eq_map_entryAt, List.countP_map]
  refine (List.countP_congr fun p _ => ?_).trans (countP_clock_phase s.cfg.width)
  rw [Function.comp_apply, hclk, State.sigAt_clk_iff, decide_eq_true_eq]

/-! ### The totals of a cycle -/

theorem map_range_mul {α : Type} (m n : Nat) (f : Nat → Nat → α) :
    (List.range (m * n)).map (fun i => f (i / n) (i % n)) = (List.range m).flatMap fun a => (List.range n).map (f a) := by
  induction m with
  | zero => simp
  | succ m ih =>
    rw [Nat.succ_mul, List.range_add, List.map_append, ih, List.range_succ, List.flatMap_append, List.flatMap_singleton,
      List.map_map]
    congr 1
    refine List.map_congr_left fun k hk => ?_
    have hk := List.mem_range.1 hk
    rw [Function.comp_apply, Nat.mul_comm, Nat.mul_add_div (by omega), Nat.div_eq_of_lt hk, Nat.mul_add_mod,
      Nat.mod_eq_of_lt hk, Nat.add_zero]

theorem sum_flatMap {α : Type} (l : List α) (f : α → List Nat) : (l.flatMap f).sum = (l.map fun a => (f a).sum).sum := by
  rw [List.flatMap, List.sum_flatten, List.map_map]
  rfl

theorem sum_two_pow (n : Nat) : ((List.range n).map fun i => 2 ^ i).sum = 2 ^ n - 1 := by
  induction n with
  | zero => rfl
  | succ n ih =>
    have hpos := Nat.two_pow_pos n
    rw [List.sum_range_succ, ih, Nat.pow_succ]
    omega

/-- The hold times of one row's planes, in either order. -/
theorem sum_two_pow_planeIdx (p : BuildParams) :
    ((List.range p.depth).map fun k => 2 ^ p.planeIdx k).sum = 2 ^ p.depth - 1 := by
  rw [← sum_two_pow, ← (p.map_planeIdx_perm.map fun i => 2 ^ i).sum_eq, List.map_map]
  rfl

theorem State.length_cycleTrace (s : State) (n : Nat) : (s.cycleTrace n).length = n * (2 * s.cfg.width + 3) := by
  rw [State.cycleTrace, length_flatMap_const _ _ (2 * s.cfg.width + 3) fun i _ => (s.atStep i).length_stepTrace,
    List.length_range]

theorem State.sum_dur_cycleTrace (s : State) :
    ((s.cycleTrace (s.cfg.nrows * s.params.depth)).map TraceEntry.dur).sum =
      s.cfg.nrows * ((2 ^ s.params.depth - 1) + s.params.depth * (2 * s.cfg.width + 2) * s.params.tSetup) := by
  have hstep (i : Nat) : ((s.atStep i).stepTrace.map TraceEntry.dur).sum =
      2 ^ s.params.planeIdx (i % s.params.depth) + (2 * s.cfg.width + 2) * s.params.tSetup :=
    (s.atStep i).sum_dur_stepTrace
  set setup := (2 * s.cfg.width + 2) * s.params.tSetup
  calc ((s.cycleTrace (s.cfg.nrows * s.params.depth)).map TraceEntry.dur).sum
    _ = ((List.range (s.cfg.nrows * s.params.depth)).map fun i =>
          2 ^ s.params.planeIdx (i % s.params.depth) + setup).sum := by
      rw [State.cycleTrace, List.map_flatMap, sum_flatMap]
      simp only [hstep]
    _ = ((List.range s.cfg.nrows).map fun _ =>
          ((List.range s.params.depth).map fun k => 2 ^ s.params.planeIdx k + setup).sum).sum := by
      rw [map_range_mul _ _ fun _ k => 2 ^ s.params.planeIdx k + setup, sum_flatMap]
    _ = s.cfg.nrows * ((2 ^ s.params.depth - 1) + s.params.depth * setup) := by
      rw [sum_map_const, List.length_range, List.sum_map_add, sum_two_pow_planeIdx, sum_map_const, List.length_range]
    _ = _ := by rw [Nat.mul_assoc]

theorem State.Streamed.atStep (hst : s.Streamed) (i : Nat) : (s.atStep i).Streamed := { hst with }

theorem State.countP_clk_cycleTrace (hst : s.Streamed) (n : Nat) :
    (s.cycleTrace n).countP (fun e => e.lw.testBit (s.cfg.ndata + s.cfg.nAddr + 1)) = n * s.cfg.width := by
  have hstep (i : Nat) := State.countP_clk_stepTrace (s := s.atStep i) (Nat.mod_lt _ (Nat.two_pow_pos _)) (hst.atStep i)
  rw [State.cycleTrace, List.countP_flatMap]
  refine (congrArg List.sum (List.map_congr_left fun i _ => hstep i)).trans ?_
  exact (sum_map_const (List.range n) s.cfg.width).trans (by rw [List.length_range])

theorem State.recover_cycleTrace (s : State) (n : Nat) (rest : List TraceEntry) :
    s.cfg.recover (s.cycleTrace n ++ rest) =
      ((List.range n).map fun i => s.cfg.recordOf (s.atStep i).stepTrace) ++ s.cfg.recover rest := by
  induction n generalizing rest with
  | zero => rfl
  | succ n ih =>
    rw [State.cycleTrace_succ, List.append_assoc, ih, List.range_succ, List.map_append, List.append_assoc]
    exact congrArg _ ((s.atStep n).recover_stepTrace_append rest)

/-- The records of a cycle are those of every row and plane of the frame it streams. -/
theorem State.Streamed.recover_cycleTrace (hst : s.Streamed) :
    s.cfg.recover (s.cycleTrace (s.cfg.nrows * s.params.depth)) = (List.range s.cfg.nrows).flatMap fun a =>
      (List.range s.params.depth).map fun k => s.cfg.frameRecord s.params s.active.frame a k := by
  have hrecords := s.recover_cycleTrace (s.cfg.nrows * s.params.depth) []
  rw [List.append_nil] at hrecords
  rw [hrecords, ← map_range_mul]
  refine (List.append_nil _).trans (List.map_congr_left fun i hi => ?_)
  have hi := List.mem_range.1 hi
  have hdepth : 0 < s.params.depth := Nat.pos_of_ne_zero fun hzero => by simp [hzero] at hi
  have hrow : i / s.params.depth % s.cfg.nrows = i / s.params.depth :=
    Nat.mod_eq_of_lt (Nat.div_lt_of_lt_mul (by rwa [Nat.mul_comm]))
  have hrow_lt : (s.atStep i).row < s.cfg.nrows := Nat.mod_lt _ (Nat.two_pow_pos _)
  refine ((s.atStep i).recordOf_stepTrace hrow_lt (hst.atStep i)).trans
    (((hst.atStep i).stepRecord_eq_frameRecord hrow_lt (Nat.mod_lt _ hdepth)).trans ?_)
  change s.cfg.frameRecord s.params s.active.frame (i / s.params.depth % s.cfg.nrows) (i % s.params.depth) = _
  rw [hrow]

/-- Settles O42: the steps of the cycle are those of every row and plane, all made of the frame the take leaves in ACTIVE. -/
theorem cycleTotals : Obligations.CycleTotals := by
  rintro s n h hstart hgo rfl hok
  obtain ⟨hf, -⟩ := State.atCycleStart_iff.1 hstart
  have hst := (h.frameTaken_taken (by simp [hf])).streamed
  obtain ⟨m, hm⟩ : ∃ m, s.cfg.nrows * s.params.depth = m + 1 :=
    Nat.exists_eq_succ_of_ne_zero (Nat.mul_pos (Nat.two_pow_pos _) h.depth_pos).ne'
  obtain ⟨as, fa, out, hrun, -⟩ := exists_microSteps_steps hstart hgo h.depth_pos hm.ge (hm ▸ hok)
  rw [← hm] at hrun
  refine ⟨_, s.taken.cycleTrace (s.cfg.nrows * s.params.depth), hrun, ?start, rfl, ?writes, ?clocks, ?durations,
    ?displayed, ?records⟩
  case start =>
    refine State.atCycleStart_iff.2 ⟨s.taken_fsm.trans hf, ?_, ?_, rfl⟩
    · change s.cfg.nrows * s.params.depth / s.taken.params.depth % s.taken.cfg.nrows = 0
      rw [State.taken_params, State.taken_cfg, Nat.mul_div_cancel _ h.depth_pos, Nat.mod_self]
    · change s.cfg.nrows * s.params.depth % s.taken.params.depth = 0
      rw [State.taken_params, Nat.mul_mod_left]
  case writes => rw [State.length_cycleTrace, State.taken_cfg]
  case clocks =>
    have hclocks := State.countP_clk_cycleTrace hst (s.cfg.nrows * s.params.depth)
    rw [State.taken_cfg] at hclocks
    rw [← List.countP_eq_length_filter, hclocks]
  case durations =>
    have hdur := s.taken.sum_dur_cycleTrace
    rwa [State.taken_cfg, State.taken_params] at hdur
  case displayed =>
    change s.taken.displayed = s.displayed ++ [s.taken.active.id]
    rw [State.taken_of_start hstart]
    exact s.take_displayed
  case records =>
    have hrecords := hst.recover_cycleTrace
    rwa [State.taken_cfg, State.taken_params, State.taken_active_frame] at hrecords

end Sys2Proof.Machine
end

section
/-! The host commands (44_driver_commands.md): when each is enabled (R237), and what each then comes to. -/

namespace Sys2Proof

/-- Every format is the one of its code (30_encoding.md R98). -/
@[simp] theorem Format.ofCode_code (f : Format) : Format.ofCode f.code.toNat = some f := by cases f <;> rfl

namespace Machine

variable {s t : State}

/-! ### The guards -/

theorem State.ackEnabled_iff :
    s.ackEnabled = true ↔ s.life = .constructed ∧ s.stopreq = true ∧ s.fsm = .idle := by
  simp [State.ackEnabled, and_assoc]

theorem State.fbInRange_iff {x y ch : Nat} : s.fbInRange x y ch = true ↔ x < s.fbW ∧ y < s.fbH ∧ ch ≤ 2 := by
  simp [State.fbInRange, and_assoc]

theorem withinBound_iff {bound : Option Nat} {n : Nat} : withinBound bound n = true ↔ ∀ m, bound = some m → n ≤ m := by
  cases bound <;> simp [withinBound]

theorem State.commandEnabled_eq_false (h : s.life ≠ .constructed ∨ s.stopreq = true) : s.commandEnabled = false := by
  rcases h with h | h <;> simp [State.commandEnabled, h]

theorem State.constructEnabled_eq_false (h : s.life = .constructed ∨ s.stopreq = true) :
    s.constructEnabled = false := by
  rcases h with h | h <;> simp [State.constructEnabled, h]

/-! ### SHOW, POLL, STOP.req and STOP.ack (R233 to R236) -/

theorem exec_showFrame_of_not_enabled (hen : s.commandEnabled = false) :
    exec .showFrame s = .refused .notEnabled := if_pos (by simp [hen])

theorem exec_showFrame_of_errflag (hen : s.commandEnabled = true) (he : s.errflag = true) :
    exec .showFrame s = .next s.reportError := (if_neg (by simp [hen])).trans (if_pos he)

theorem exec_showFrame_of_no_error (hen : s.commandEnabled = true) (he : s.errflag = false) : exec .showFrame s =
    guarded (withinBound s.params.maxShowcnt (s.showcnt + 1)) .showcntBound (s.publish.answer (.code .ok)) :=
  (if_neg (by simp [hen])).trans (if_neg (by simp [he]))

/-- A SHOW that completes with no error latched has published. -/
theorem eq_publish_of_exec_showFrame (he : s.errflag = false) (ht : exec .showFrame s = .next t) :
    t = s.publish.answer (.code .ok) := by
  cases hen : s.commandEnabled
  · rw [exec_showFrame_of_not_enabled hen] at ht
    cases ht
  · rw [exec_showFrame_of_no_error hen he] at ht
    exact (guarded_next ht).2

theorem exec_poll (hen : s.commandEnabled = true) : exec .poll s = .next s.reportError := if_pos hen

theorem exec_stopReq (hen : s.commandEnabled = true) : exec .stopReq s = .next (s.requestStop.answer .none) :=
  if_pos hen

theorem exec_stopAck (hack : s.ackEnabled = true) : exec .stopAck s = .next s.endInstance.reportError := if_pos hack

/-! ### FBWRITE and FBREAD (R231) -/

theorem exec_fbwrite (hq : s.stopreq = false) (x y ch : Nat) (v : Byte) : exec (.fbwrite x y ch v) s =
    guarded (s.fbInRange x y ch) .badOperand ((s.setFbByte (fbAddr s.fbW x y ch) v).answer .none) :=
  if_neg (by simp [State.fbEnabled, hq])

theorem exec_fbread (hq : s.stopreq = false) (x y ch : Nat) : exec (.fbread x y ch) s =
    guarded (s.fbInRange x y ch) .badOperand (s.answer (.byte (s.fbByte (fbAddr s.fbW x y ch)))) :=
  if_neg (by simp [State.fbEnabled, hq])

theorem exec_fbwrite_of_stopreq (hq : s.stopreq = true) (x y ch : Nat) (v : Byte) :
    exec (.fbwrite x y ch v) s = .refused .notEnabled := if_pos (by simp [State.fbEnabled, hq])

theorem exec_fbread_of_stopreq (hq : s.stopreq = true) (x y ch : Nat) :
    exec (.fbread x y ch) s = .refused .notEnabled := if_pos (by simp [State.fbEnabled, hq])

/-! ### CONSTRUCT (R232) -/

theorem geometryOf_natCast {w h nAddr : Nat} {orient : Orient} {mirror : Bool} (hw : 0 < w) (hh : 0 < h)
    (hrows : 2 ^ nAddr ∣ h) (hsquare : orient = .r90 ∨ orient = .r270 → w = h) :
    geometryOf w h nAddr orient mirror = .ok ⟨w, h, nAddr, orient, mirror⟩ :=
  geometryOf_ok_iff.2 ⟨⟨Int.natCast_pos.2 hw, Int.natCast_pos.2 hh, Int.natCast_dvd_natCast.2 hrows,
    fun ho => congrArg _ (hsquare ho)⟩, rfl⟩

/-- The operands of a geometry within the bounds of the build, with the dimensions of that geometry. -/
theorem constructCfg_of_geometryOf {p : BuildParams} {w h nAddr : Nat} {orient : Orient} {mirror : Bool} {f : Format}
    {pin : PinoutArg} {pins : Pinout} (hg : geometryOf w h nAddr orient mirror = .ok ⟨w, h, nAddr, orient, mirror⟩)
    (hmaxW : withinBound p.maxWidth w = true) (hmaxH : withinBound p.maxHeight h = true)
    (hmaxA : withinBound p.maxAddr nAddr = true)
    (hpins : Cfg.resolvePinout ⟨w, h, nAddr, orient, mirror, f, pins⟩ pin = pins) :
    constructCfg p w h w h nAddr orient mirror pin f.code.toNat = .ok ⟨w, h, nAddr, orient, mirror, f, pins⟩ := by
  have hpins' : Cfg.resolvePinout ⟨w, h, nAddr, orient, mirror, f, ⟨0, 0, [], []⟩⟩ pin = pins := by
    rw [← hpins]
    cases pin <;> rfl
  simp [constructCfg, hg, hmaxW, hmaxH, hmaxA, hpins']

/-- The pinout operand names a table that is a pinout: a given one, or the default where it fits. -/
theorem Cfg.resolvePinout_ok {c : Cfg} {p : BuildParams} {pin : PinoutArg} {pins : Pinout}
    (h : pin = .table pins ∧ c.pinoutOk (c.nlines p) pins = true ∨
      pin = .default ∧ pins = c.defaultPinout ∧ c.nsig ≤ c.nlines p) :
    c.resolvePinout pin = pins ∧ c.pinoutOk (c.nlines p) pins = true := by
  rcases h with ⟨rfl, hok⟩ | ⟨rfl, rfl, hfits⟩
  · exact ⟨rfl, hok⟩
  · exact ⟨rfl, c.defaultPinout_ok _ hfits⟩

theorem exec_construct_of_not_enabled {fbW fbH : Nat} {width height : Int} {nAddr : Nat} {orient : Orient}
    {mirror : Bool} {pin : PinoutArg} {cs : Nat} (hen : s.constructEnabled = false) :
    exec (.construct fbW fbH width height nAddr orient mirror pin cs) s = .refused .notEnabled := if_pos (by simp [hen])

theorem exec_construct_of_ok {fbW fbH : Nat} {width height : Int} {nAddr : Nat} {orient : Orient} {mirror : Bool}
    {pin : PinoutArg} {cs : Nat} {c : Cfg} (hen : s.constructEnabled = true)
    (hc : constructCfg s.params fbW fbH width height nAddr orient mirror pin cs = .ok c)
    (hw : s.fbW = c.width) (hh : s.fbH = c.height) (hpin : c.pinoutOk (c.nlines s.params) c.pinout = true) :
    exec (.construct fbW fbH width height nAddr orient mirror pin cs) s =
      .next ((s.startInstance c).answer (.code .ok)) := by
  change execConstruct .. = _
  simp [execConstruct, hen, hc, State.fbSized, hw, hh, hpin]

/-! ### The statements -/

/-- Settles O56: FBWRITE is one store and FBREAD one load at the byte's address. -/
theorem framebufferAccess : Obligations.FramebufferAccess := by
  intro s x y ch v hq hx hy hch
  have hin : s.fbInRange x y ch = true := State.fbInRange_iff.2 ⟨hx, hy, hch⟩
  rw [exec_fbwrite hq, exec_fbread hq, hin]
  exact ⟨⟨_, rfl, fun a => s.fbByte_setFbByte _ a v⟩, rfl⟩

/-- Settles O49: the operands pass every check, and the rest is what a new instance is. -/
theorem constructEstablishesTheInstance : Obligations.ConstructEstablishesTheInstance := by
  rintro s nAddr orient mirror pin _ f pins _ hl hq hw hh hrows hsquare hmaxW hmaxH hmaxA rfl rfl hpin
  obtain ⟨hpins, hok⟩ := Cfg.resolvePinout_ok hpin
  have hcfg := constructCfg_of_geometryOf (geometryOf_natCast hw hh hrows hsquare) (withinBound_iff.2 hmaxW)
    (withinBound_iff.2 hmaxH) (withinBound_iff.2 hmaxA) hpins
  exact exec_construct_of_ok (State.constructEnabled_iff.2 ⟨hl, hq⟩) hcfg rfl rfl hok

/-- Settles O52: SHOW is guarded by the bound on SHOWCNT only, once it is enabled and no error is latched. -/
theorem showPublishesTheFramebuffer : Obligations.ShowPublishesTheFramebuffer := by
  intro s hl hq he
  rw [exec_showFrame_of_no_error (State.commandEnabled_iff.2 ⟨hl, hq⟩) he]
  refine ⟨fun hbound => ?_, fun m hm hfull => ?_⟩
  · rw [withinBound_iff.2 hbound]
    rfl
  · exact guarded_of_false (Bool.eq_false_iff.2 fun hbound => hfull.not_gt (withinBound_iff.1 hbound m hm))

/-- Settles O53: the three commands end in one report. -/
theorem latchedErrorIsReported : Obligations.LatchedErrorIsReported := by
  refine fun s hl => ⟨fun hq he => ?_, fun hq he => ?_, fun hq hf he => ?_⟩
  · have hen := State.commandEnabled_iff.2 ⟨hl, hq⟩
    rw [exec_showFrame_of_errflag hen he, exec_poll hen, State.reportError_set he]
    exact ⟨rfl, rfl⟩
  · rw [exec_poll (State.commandEnabled_iff.2 ⟨hl, hq⟩), State.reportError_clear he]
  · rw [exec_stopAck (State.ackEnabled_iff.2 ⟨hl, hq, hf⟩), State.endInstance_reportError, State.reportError_set he]
    rfl

/-- Settles O55: STOP.req sets its flag, and STOP.ack ends the instance and reports that no error is latched. -/
theorem stopRequestAndAcknowledge : Obligations.StopRequestAndAcknowledge := by
  refine fun s hl => ⟨fun hq => exec_stopReq (State.commandEnabled_iff.2 ⟨hl, hq⟩), fun hq hf he => ?_⟩
  rw [exec_stopAck (State.ackEnabled_iff.2 ⟨hl, hq, hf⟩), State.endInstance_reportError, State.reportError_clear he]
  rfl

/-- Settles O57: each command is behind the guard that R237 gives it, and the guard fails. -/
theorem commandsNotEnabledAreRefused : Obligations.CommandsNotEnabledAreRefused := by
  refine fun s => ⟨fun hdis => ?command, fun hdis => ?ack, fun _ _ _ _ _ _ _ _ _ hdis => ?construct,
    fun x y ch v hq => ⟨exec_fbwrite_of_stopreq hq x y ch v, exec_fbread_of_stopreq hq x y ch⟩,
    fun x y ch v hq hout => ?outside, rfl, rfl⟩
  case command =>
    have hen := State.commandEnabled_eq_false hdis
    exact ⟨exec_showFrame_of_not_enabled hen, guarded_of_false hen, guarded_of_false hen⟩
  case ack =>
    refine guarded_of_false (Bool.eq_false_iff.2 fun hack => ?_)
    obtain ⟨hl, hq, hf⟩ := State.ackEnabled_iff.1 hack
    simp [hl, hq, hf] at hdis
  case construct => exact exec_construct_of_not_enabled (State.constructEnabled_eq_false hdis)
  case outside =>
    have hin : s.fbInRange x y ch = false := Bool.eq_false_iff.2 (mt State.fbInRange_iff.1 (by omega))
    rw [exec_fbwrite hq, exec_fbread hq]
    exact ⟨guarded_of_false hin, guarded_of_false hin⟩

/-- Settles O59: each SHOW overwrites the mailbox, and the take displays what is in it. -/
theorem secondShowReplacesTheFirst : Obligations.SecondShowReplacesTheFirst := by
  intro s t1 t2 _ he h1 h2
  obtain rfl := eq_publish_of_exec_showFrame he h1
  obtain rfl := eq_publish_of_exec_showFrame (s := s.publish.answer (.code .ok)) he h2
  refine ⟨rfl, rfl, rfl, fun t3 _ h3 => ?_⟩
  obtain ⟨-, rfl⟩ := guarded_next h3
  rw [State.take_full rfl]
  exact ⟨rfl, rfl⟩

end Machine
end Sys2Proof
end

section
/-! The host's turns around `stop()` and before CONSTRUCT (44_driver_commands.md R235, R236, R239; 10_state.md R29). -/

namespace Sys2Proof.Machine

variable {s : State} {ts : List Turn}

theorem step_of_hostEnds_turn (h : s.turns = .hostEnds :: ts) :
    step s = perform { s with turns := ts }.hostEndsTurn := by
  simp only [step, State.fetch, State.takeTurn_of_turns_cons h]

theorem step_of_hostAllocates_turn {w h : Nat} (hturn : s.turns = .hostAllocates w h :: ts) :
    step s =
      .next (if s.constructEnabled then State.allocateFb { s with turns := ts } w h else { s with turns := ts }) := by
  simp only [step, State.fetch, State.takeTurn_of_turns_cons hturn]
  rfl

theorem perform_hostTurn_of_ackEnabled (hack : s.ackEnabled = true) : perform s.hostTurn = exec .stopAck s := by
  obtain ⟨-, hq, -⟩ := State.ackEnabled_iff.1 hack
  rw [State.hostTurn, if_pos hq, if_pos hack]
  rfl

theorem perform_hostTurn_of_running (hq : s.stopreq = true) (hf : s.fsm ≠ .idle) : perform s.hostTurn = .next s := by
  rw [State.hostTurn, if_pos hq, if_neg fun hack => hf (State.ackEnabled_iff.1 hack).2.2]
  rfl

theorem perform_hostEndsTurn_of_enabled (hen : s.commandEnabled = true) :
    perform s.hostEndsTurn = exec .stopReq { s with program := [] } := congrArg perform (if_pos hen)

theorem perform_hostEndsTurn_of_not_enabled (hen : s.commandEnabled = false) :
    perform s.hostEndsTurn = .next { s with program := [] } := congrArg perform (if_neg (ne_true_of_eq_false hen))

/-- Settles O6: inside `stop()` the host's turn is STOP.ack or a wait, and the end of a host is STOP.req where that is
enabled. -/
theorem hostInsideStopReturnsOrWaits : Obligations.HostInsideStopReturnsOrWaits := by
  refine fun s ts => ⟨fun hturn hl hq => ?inside, fun hturn => ?ends⟩
  case inside =>
    rw [step_of_host_turn hturn]
    exact ⟨fun hf => perform_hostTurn_of_ackEnabled (State.ackEnabled_iff.2 ⟨hl, hq, hf⟩),
      fun hf => perform_hostTurn_of_running hq hf⟩
  case ends =>
    rw [step_of_hostEnds_turn hturn]
    refine ⟨fun hl hq => ?_, fun hdis => perform_hostEndsTurn_of_not_enabled (State.commandEnabled_eq_false hdis)⟩
    have hen : State.commandEnabled { s with turns := ts } = true := State.commandEnabled_iff.2 ⟨hl, hq⟩
    exact (perform_hostEndsTurn_of_enabled hen).trans (exec_stopReq hen)

/-- Settles O50: the turn allocates where CONSTRUCT is enabled, and what CONSTRUCT then establishes is over the new
framebuffer. -/
theorem constructOverANewFramebuffer : Obligations.ConstructOverANewFramebuffer := by
  intro s w h ts hturn
  rw [step_of_hostAllocates_turn hturn]
  refine ⟨fun hdis => ?_, fun hl hq => ?_⟩
  · rw [if_neg (ne_true_of_eq_false (State.constructEnabled_eq_false hdis))]
  · rw [if_pos (State.constructEnabled_iff.2 ⟨hl, hq⟩)]
    refine ⟨rfl, fun t nAddr orient mirror pin cs f pins c ht => ?_⟩
    cases ht
    exact constructEstablishesTheInstance (State.allocateFb { s with turns := ts } w h) nAddr orient mirror pin cs f
      pins c hl hq

end Sys2Proof.Machine
end

section
/-! A stop request (43_output_scheduler.md R202, 44_driver_commands.md R235, R236): the step in progress is run to its
end, or to a failed write, and STOP.ack is then enabled. -/

namespace Sys2Proof.Machine

variable {s t : State} {n w : Nat}

/-! ### Runs of micro-steps -/

theorem microSteps_keeps_inv (h : s.Inv) (ht : microSteps n s = .next t) : t.Inv := by
  induction n generalizing s with
  | zero =>
    cases ht
    exact h
  | succ n ih =>
    obtain ⟨s', hstep, hrun⟩ := andThen_eq_next ht
    exact ih (microStep_keeps_inv h hstep) hrun

theorem microStepsUntil_of_stop {stop : State → Bool} (hs : stop s = true) (n : Nat) :
    microStepsUntil stop n s = .next s := by
  cases n with
  | zero => rfl
  | succ n => exact if_pos hs

theorem microStepsUntil_succ_of_next {stop : State → Bool} (hs : stop s = false) (ht : microStep s = .next t)
    (n : Nat) : microStepsUntil stop (n + 1) s = microStepsUntil stop n t := by
  rw [microStepsUntil, if_neg (ne_true_of_eq_false hs), ht, andThen_next]

/-- Run until Idle, `m` micro-steps or more are enough from `s`, and they stop at `t`. -/
def State.IdlesAt (s t : State) (m : Nat) : Prop :=
  ∀ n, m ≤ n → microStepsUntil (fun u => decide (u.fsm = .idle)) n s = .next t

theorem State.IdlesAt.of_idle (hf : s.fsm = .idle) : s.IdlesAt s 0 :=
  fun n _ => microStepsUntil_of_stop (decide_eq_true hf) n

theorem State.IdlesAt.succ {u : State} {m : Nat} (h : t.IdlesAt u m) (hf : s.fsm ≠ .idle)
    (hstep : microStep s = .next t) : s.IdlesAt u (m + 1) := by
  intro n hn
  obtain ⟨k, rfl⟩ := Nat.exists_eq_add_of_le' hn
  rw [← Nat.add_assoc, microStepsUntil_succ_of_next (decide_eq_false hf) hstep]
  exact h _ (Nat.le_add_left m k)

/-! ### The run that ends with STOP.ack enabled -/

/-- `m` micro-steps lead from `s` to `t`, the first state in Idle, where STOP.ack is enabled; TRACE gets `writes` and
then `forced`, which holds the forced entry or nothing. -/
structure State.RunsToAck (s t : State) (m : Nat) (writes forced : List TraceEntry) : Prop where
  run : microSteps m s = .next t
  idles : s.IdlesAt t m
  ack : t.ackEnabled = true
  trace : t.trace = s.trace ++ writes ++ forced
  not_forced : ∀ e ∈ writes, e.status ≠ .forced
  forced_length : forced.length ≤ 1
  forced_eq : ∀ e ∈ forced, e = ⟨0, 0, .forced⟩

/-- STOP.ack is enabled within `n` micro-steps, after at most `w` line writes. -/
def State.AcksWithin (s : State) (n w : Nat) : Prop :=
  ∃ t m writes forced, m ≤ n ∧ writes.length ≤ w ∧ s.RunsToAck t m writes forced

theorem State.RunsToAck.of_ackEnabled (hack : s.ackEnabled = true) : s.RunsToAck s 0 [] [] where
  run := rfl
  idles := IdlesAt.of_idle (State.ackEnabled_iff.1 hack).2.2
  ack := hack
  trace := by simp
  not_forced := by simp
  forced_length := Nat.zero_le 1
  forced_eq := by simp

theorem State.ackEnabled_stopEntry (hl : s.life = .constructed) (hq : s.stopreq = true) :
    s.stopEntry.ackEnabled = true := State.ackEnabled_iff.2 ⟨hl, hq, rfl⟩

theorem State.ackEnabled_deviceErrorEntry (hl : s.life = .constructed) (hq : s.stopreq = true) :
    s.deviceErrorEntry.ackEnabled = true := State.ackEnabled_iff.2 ⟨hl, hq, rfl⟩

/-- One micro-step before, and what it records before. -/
theorem State.RunsToAck.cons {u : State} {m : Nat} {new writes forced : List TraceEntry}
    (h : t.RunsToAck u m writes forced) (hf : s.fsm ≠ .idle) (hstep : microStep s = .next t)
    (htrace : t.trace = s.trace ++ new) (hnew : ∀ e ∈ new, e.status ≠ .forced) :
    s.RunsToAck u (m + 1) (new ++ writes) forced where
  run := (microSteps_succ_of_next hstep).trans h.run
  idles := h.idles.succ hf hstep
  ack := h.ack
  trace := by rw [h.trace, htrace, List.append_assoc s.trace]
  not_forced e he := (List.mem_append.1 he).elim (hnew e) (h.not_forced e)
  forced_length := h.forced_length
  forced_eq := h.forced_eq

/-- A micro-step that enters Idle with a forced write. -/
theorem State.RunsToAck.of_entry {new : List TraceEntry} (hf : s.fsm ≠ .idle) (hstep : microStep s = .next t)
    (htrace : t.trace = s.trace ++ new ++ [⟨0, 0, .forced⟩]) (hnew : ∀ e ∈ new, e.status ≠ .forced)
    (hack : t.ackEnabled = true) : s.RunsToAck t 1 new [⟨0, 0, .forced⟩] where
  run := microSteps_succ_of_next hstep
  idles := (RunsToAck.of_ackEnabled hack).idles.succ hf hstep
  ack := hack
  trace := htrace
  not_forced := hnew
  forced_length := Nat.le_refl 1
  forced_eq _ he := List.mem_singleton.1 he

theorem State.AcksWithin.mono {n' w' : Nat} (h : s.AcksWithin n w) (hn : n ≤ n') (hw : w ≤ w') :
    s.AcksWithin n' w' := by
  obtain ⟨t, m, writes, forced, hm, hlen, hrun⟩ := h
  exact ⟨t, m, writes, forced, hm.trans hn, hlen.trans hw, hrun⟩

theorem State.AcksWithin.cons {new : List TraceEntry} (h : t.AcksWithin n w) (hf : s.fsm ≠ .idle)
    (hstep : microStep s = .next t) (htrace : t.trace = s.trace ++ new) (hnew : ∀ e ∈ new, e.status ≠ .forced) :
    s.AcksWithin (n + 1) (w + new.length) := by
  obtain ⟨u, m, writes, forced, hm, hlen, hrun⟩ := h
  refine ⟨u, m + 1, new ++ writes, forced, Nat.succ_le_succ hm, ?_, hrun.cons hf hstep htrace hnew⟩
  rw [List.length_append, Nat.add_comm]
  exact Nat.add_le_add_right hlen _

/-! ### From each state of the scheduler, while a stop is requested -/

theorem State.acksWithin_of_idle (hl : s.life = .constructed) (hq : s.stopreq = true) (hf : s.fsm = .idle) :
    s.AcksWithin 0 0 :=
  ⟨s, 0, [], [], le_rfl, le_rfl, RunsToAck.of_ackEnabled (State.ackEnabled_iff.2 ⟨hl, hq, hf⟩)⟩

/-- In PlaneAdvance the stop entry is next (R202). -/
theorem State.acksWithin_of_planeAdvance (hl : s.life = .constructed) (hq : s.stopreq = true)
    (hf : s.fsm = .planeAdvance) : s.AcksWithin 1 0 := by
  have hstep := microStep_planeAdvance hf
  rw [if_pos hq] at hstep
  exact ⟨_, 1, [], _, le_rfl, le_rfl, RunsToAck.of_entry (by simp [hf]) hstep (by simp [State.stopEntry_eq]) (by simp)
    (ackEnabled_stopEntry (s := s.nextPlane) hl hq)⟩

theorem State.acksWithin_of_rowAdvance (hl : s.life = .constructed) (hq : s.stopreq = true) (hf : s.fsm = .rowAdvance) :
    s.AcksWithin 2 0 := by
  refine AcksWithin.cons (n := 1) (new := []) ?_ (by simp [hf]) (microStep_rowAdvance hf) (List.append_nil _).symm
    (by simp)
  exact acksWithin_of_planeAdvance hl hq rfl

@[simp] theorem State.taken_life (s : State) : s.taken.life = s.life := by
  obtain ⟨_, _, _, _, _, _, h⟩ := s.taken_eq
  rw [h]

/-- A line write goes on as `f` does, or it fails, and the DeviceError entry ends in Idle (60_exceptions.md R256). -/
theorem State.acksWithin_of_write {sig : Sig} {dur : Nat} {f : State → State} (hl : s.life = .constructed)
    (hq : s.stopreq = true) (hf : s.fsm ≠ .idle) (hstep : microStep s = .next (s.taken.writeOrTrap sig dur f))
    (hkept : ∀ u, (f u).trace = u.trace)
    (hok : ∀ as fa tr,
      State.AcksWithin (f { s.taken with answers := as, freeAnswers := fa, out := sig, trace := tr }) n w) :
    s.AcksWithin (n + 1) (w + 1) := by
  obtain ⟨as, fa, hwrite | hwrite⟩ := s.taken.writeOrTrap_cases sig dur f
  · rw [hwrite] at hstep
    refine (hok as fa _).cons (new := [⟨s.taken.cfg.lineWord sig, dur, .ok⟩]) hf hstep ?_ (by simp)
    rw [hkept, State.taken_trace]
  · rw [hwrite] at hstep
    refine ⟨_, 1, [⟨s.taken.cfg.lineWord sig, dur, .fail⟩], _, Nat.le_add_left 1 n, Nat.le_add_left 1 w,
      RunsToAck.of_entry hf hstep ?_ (by simp) (ackEnabled_deviceErrorEntry ?_ ?_)⟩
    · rw [State.deviceErrorEntry_eq, State.taken_trace]
    · exact s.taken_life.trans hl
    · exact s.taken_stopreq.trans hq

/-- Before the hold, a micro-step is the write of its PHASE and goes on to the next. -/
theorem microStep_before_hold (hf : s.fsm = .streamingFrame) (hp : s.phase < 2 * s.cfg.width + 2) : microStep s =
    .next (s.taken.writeOrTrap (s.taken.sigAt s.phase) (s.taken.durAt s.phase) State.nextPhase) := by
  by_cases hzero : s.phase = 0
  · rw [hzero]
    exact microStep_select hf hzero
  · rw [State.taken_of_phase hzero]
    exact microStep_within hf hzero hp

/-- In StreamingFrame, `n` phases before the hold, at most `n + 1` writes are left and then the two advances. -/
theorem State.acksWithin_of_streaming (hl : s.life = .constructed) (hq : s.stopreq = true)
    (hf : s.fsm = .streamingFrame) (hn : s.phase + n = 2 * s.cfg.width + 2) : s.AcksWithin (n + 3) (n + 1) := by
  have hrun : s.fsm ≠ .idle := by simp [hf]
  induction n generalizing s with
  | zero =>
    have hp : s.phase = 2 * s.cfg.width + 2 := hn
    have hstep : microStep s =
        .next (s.taken.writeOrTrap (s.sigAt s.phase) (s.durAt s.phase) fun t => t.goto .rowAdvance) := by
      rw [State.taken_of_phase (by omega)]
      exact microStep_hold hf hp
    exact acksWithin_of_write hl hq hrun hstep (fun _ => rfl) fun _ _ _ =>
      acksWithin_of_rowAdvance (s.taken_life.trans hl) (s.taken_stopreq.trans hq) rfl
  | succ n ih =>
    refine acksWithin_of_write hl hq hrun (microStep_before_hold hf (by omega)) (fun _ => rfl) fun _ _ _ =>
      ih (s.taken_life.trans hl) (s.taken_stopreq.trans hq) (s.taken_fsm.trans hf) ?_ (by simp [hf])
    change s.taken.phase + 1 + n = 2 * s.taken.cfg.width + 2
    rw [State.taken_phase, State.taken_cfg, ← hn, Nat.add_assoc, Nat.add_comm 1]

theorem State.Inv.acksWithin (h : s.Inv) (hl : s.life = .constructed) (hq : s.stopreq = true) :
    s.AcksWithin (2 * s.cfg.width + 5) (2 * s.cfg.width + 3) := by
  cases hf : s.fsm with
  | idle => exact (acksWithin_of_idle hl hq hf).mono (Nat.zero_le _) (Nat.zero_le _)
  | streamingFrame =>
    obtain ⟨n, hn⟩ := Nat.exists_eq_add_of_le h.phase_le
    exact (acksWithin_of_streaming hl hq hf hn.symm).mono (by omega) (by omega)
  | rowAdvance => exact (acksWithin_of_rowAdvance hl hq hf).mono (by omega) (Nat.zero_le _)
  | planeAdvance => exact (acksWithin_of_planeAdvance hl hq hf).mono (by omega) (Nat.zero_le _)

/-! ### `stop()` (30_encoding.md R105) -/

/-- `stop()` is STOP.ack in a state of the invariant that a run from STOP.req reaches. -/
theorem exists_stopCall_eq (h : s.Inv) (hl : s.life = .constructed) (hq : s.stopreq = false) :
    ∃ t, t.Inv ∧ t.ackEnabled = true ∧ stopCall s = exec .stopAck t := by
  have hreq := exec_stopReq (State.commandEnabled_iff.2 ⟨hl, hq⟩)
  have hinv := (h.requestStop hl).answer .none
  obtain ⟨t, m, _, _, hm, -, hrun⟩ := hinv.acksWithin hl rfl
  refine ⟨t, microSteps_keeps_inv hinv hrun.run, hrun.ack, ?_⟩
  rw [stopCall, hreq, andThen_next, hrun.idles (State.stepMicroSteps _) hm, andThen_next]

/-- Settles O43: a run to STOP.ack takes no more than one step's micro-steps, and `stop()` is such a run with STOP.ack
after it. -/
theorem stopIsAcknowledgedWithinOneStep : Obligations.StopIsAcknowledgedWithinOneStep := by
  refine ⟨fun s h hl hq => ?_, fun s h hl hq => ?_⟩
  · obtain ⟨t, m, writes, forced, hm, hlen, hrun⟩ := h.acksWithin hl hq
    exact ⟨m, t, writes, forced, hm, hrun.run, hrun.ack, hrun.trace, hlen, hrun.not_forced, hrun.forced_length,
      hrun.forced_eq⟩
  · obtain ⟨t, ht, hack, hstop⟩ := exists_stopCall_eq h hl hq
    obtain ⟨-, -, hf⟩ := State.ackEnabled_iff.1 hack
    obtain ⟨hfsm, -, hout, -⟩ := t.sameStep_reportError
    rw [exec_stopAck hack, State.endInstance_reportError] at hstop
    exact ⟨_, hstop, rfl, hfsm.trans hf, hout.trans (ht.idle_lines hf), rfl, t.reportError_errflag, rfl⟩

end Sys2Proof.Machine
end

section
/-! The DeviceError entry (60_exceptions.md R255 to R259): the failed write of each PHASE takes it in the same micro-step, and
the host hears of it once. -/

namespace Sys2Proof.Machine

variable {s t : State}

/-! ### The failed write (R256, R198, R200) -/

/-- In StreamingFrame every micro-step is the write of its PHASE, and only what follows an ok differs. -/
theorem exists_microStep_write (hf : s.fsm = .streamingFrame) (hle : s.phase ≤ 2 * s.cfg.width + 2) :
    ∃ f, microStep s = .next (s.taken.writeOrTrap (s.taken.sigAt s.phase) (s.taken.durAt s.phase) f) := by
  rcases hle.lt_or_eq with hlt | hhold
  · exact ⟨_, microStep_before_hold hf hlt⟩
  · rw [State.taken_of_phase (by omega)]
    exact ⟨_, microStep_hold hf hhold⟩

/-- A write answered fail takes the DeviceError entry, whatever the PHASE. -/
theorem microStep_fail {as : List Answer} (hf : s.fsm = .streamingFrame) (hle : s.phase ≤ 2 * s.cfg.width + 2)
    (hfail : s.answers = .fail :: as) : microStep s = .next { s.taken with
      answers := as, out := Sig.allOff, err := .deviceError, errflag := true,
      trace := s.trace ++
        [⟨s.cfg.lineWord (s.taken.sigAt s.phase), s.taken.durAt s.phase, .fail⟩, ⟨0, 0, .forced⟩],
      pending := { s.taken.pending with valid := false }, fsm := .idle, row := 0, k := 0, phase := 0 } := by
  obtain ⟨f, hstep⟩ := exists_microStep_write hf hle
  rw [hstep, State.writeOrTrap_fail (s.taken_answers.trans hfail), ← s.taken_trace, ← s.taken_cfg,
    List.append_cons s.taken.trace _ [⟨0, 0, .forced⟩]]
  exact congrArg _ (State.deviceErrorEntry_eq _)

/-- A writing micro-step is selected in StreamingFrame only, at a PHASE of the table. -/
theorem State.streaming_of_selected_write {i : Instr} (hsel : s.selected = some i)
    (hi : i = .schedSelect ∨ i = .schedData ∨ i = .schedClock ∨ i = .schedLatch ∨ i = .schedHold) :
    s.fsm = .streamingFrame ∧ s.phase ≤ 2 * s.cfg.width + 2 := by
  rw [← State.selects_iff] at hsel
  rcases hi with rfl | rfl | rfl | rfl | rfl
  · obtain ⟨hf, hp⟩ := State.selects_schedSelect.1 hsel
    exact ⟨hf, by omega⟩
  · obtain ⟨hf, hp, -⟩ := State.selects_schedData.1 hsel
    exact ⟨hf, by omega⟩
  · obtain ⟨hf, hp, -⟩ := State.selects_schedClock.1 hsel
    exact ⟨hf, by omega⟩
  · obtain ⟨hf, hp⟩ := State.selects_schedLatch.1 hsel
    exact ⟨hf, by omega⟩
  · obtain ⟨hf, hp⟩ := State.selects_schedHold.1 hsel
    exact ⟨hf, by omega⟩

/-- What SCHED.TAKE answers at a cycle start, and the state itself elsewhere, is the state whose data the step writes. -/
theorem State.taken_eq_of_schedTake (htake : s.atCycleStart = true → exec .schedTake s = .next t)
    (hkept : s.atCycleStart = false → t = s) : s.taken = t := by
  cases hstart : s.atCycleStart
  · rw [State.taken_of_not_start hstart, hkept hstart]
  · have hnext := htake hstart
    rw [exec_schedTake hstart] at hnext
    cases hnext
    exact State.taken_of_start hstart

/-- Settles O39: the five micro-steps are the writes of the table, and each fails in one way. -/
theorem failedWriteTakesTheErrorEntry : Obligations.FailedWriteTakesTheErrorEntry := by
  intro s i rest hfail hsel hi s1 htake hkept
  obtain ⟨hf, hle⟩ := State.streaming_of_selected_write hsel hi
  obtain rfl := State.taken_eq_of_schedTake htake hkept
  rw [← microStep_of_selected hsel, microStep_fail hf hle hfail]

/-! ### The report (R258, R259) -/

/-- In Idle with an empty mailbox the scheduler waits (43_output_scheduler.md R205). -/
theorem microStep_of_idle_empty (hf : s.fsm = .idle) (hempty : s.pending.valid = false) : microStep s = .next s := by
  refine microStep_of_selected_none ?_
  rw [State.selected_idle hf, if_neg fun hen => ?_]
  obtain ⟨-, hv, -⟩ := State.startEnabled_iff.1 hen
  simp [hempty] at hv

@[simp] theorem State.taken_showcnt (s : State) : s.taken.showcnt = s.showcnt := by
  obtain ⟨_, _, _, _, _, _, h⟩ := s.taken_eq
  rw [h]

/-- Settles O54: the failed write leaves the error latched, the SHOW that reports it clears the latch and leaves the mailbox
empty, and the SHOW after that finds nothing to report. -/
theorem deviceErrorIsReportedExactlyOnce : Obligations.DeviceErrorIsReportedExactlyOnce := by
  intro s t rest h hq hbound hf hfail ht
  rw [microStep_fail hf h.phase_le hfail] at ht
  obtain ⟨hl, hgo, hidle, hout, he, herr, hempty, hparams, hcnt⟩ : t.life = s.life ∧ t.stopreq = s.stopreq ∧ t.fsm = .idle ∧
      t.out = Sig.allOff ∧ t.errflag = true ∧ t.err = .deviceError ∧ t.pending.valid = false ∧ t.params = s.params ∧
      t.showcnt = s.showcnt := by
    cases ht
    exact ⟨s.taken_life, s.taken_stopreq, rfl, rfl, rfl, rfl, rfl, s.taken_params, s.taken_showcnt⟩
  rw [h.constructed_of_running (by simp [hf])] at hl
  rw [hq] at hgo
  rw [← hparams, ← hcnt] at hbound
  have hwait := microStep_of_idle_empty hidle hempty
  obtain ⟨hreport, -⟩ := (latchedErrorIsReported t hl).1 hgo he
  obtain ⟨hpublish, -⟩ :=
    showPublishesTheFramebuffer { t with err := .ok, errflag := false, result := .code t.err } hl hgo rfl
  exact ⟨hout, hidle, hwait, _, _, hreport, congrArg Result.code herr, rfl, hempty, microStep_of_idle_empty hidle hempty,
    hpublish hbound, rfl, rfl, rfl⟩

end Sys2Proof.Machine
end

section
/-! The construction errors in their order of precedence (60_exceptions.md R250, R251, R253; 44_driver_commands.md R232). -/

namespace Sys2Proof

/-- The three formats are the ones of the codes below 3 (30_encoding.md R98). -/
theorem Format.exists_code_eq {cs : Nat} (h : cs < 3) : ∃ f : Format, cs = f.code.toNat := by
  match cs, h with
  | 0, _ => exact ⟨.rgb565, rfl⟩
  | 1, _ => exact ⟨.rgb888, rfl⟩
  | 2, _ => exact ⟨.rgb888Packed, rfl⟩

theorem Format.ofCode_of_le {cs : Nat} (h : 3 ≤ cs) : Format.ofCode cs = none := by
  obtain ⟨n, rfl⟩ := Nat.exists_eq_add_of_le' h
  rfl

namespace Machine

variable {s : State} {p : BuildParams} {fbW fbH : Nat} {width height : Int} {nAddr : Nat} {orient : Orient}
  {mirror : Bool} {pin : PinoutArg} {cs : Nat} {f : Format} {c : Cfg} {e : ErrCode}

/-! ### The checks one by one -/

/-- A geometry that GEOM accepts (40_geometry.md R121), within the bounds of the build (93 U16, log 20). -/
def AcceptedGeometry (p : BuildParams) (width height : Int) (nAddr : Nat) (orient : Orient) : Prop :=
  (0 < width ∧ 0 < height ∧ ((2 ^ nAddr : Nat) : Int) ∣ height ∧ (orient = .r90 ∨ orient = .r270 → width = height)) ∧
    (∀ m : Nat, p.maxWidth = some m → width ≤ m) ∧ (∀ m : Nat, p.maxHeight = some m → height ≤ m) ∧
    ∀ m, p.maxAddr = some m → nAddr ≤ m

theorem acceptedGeometry_iff (mirror : Bool) : AcceptedGeometry p width height nAddr orient ↔
    geometryOf width height nAddr orient mirror = .ok ⟨width.toNat, height.toNat, nAddr, orient, mirror⟩ ∧
      withinBound p.maxWidth width.toNat = true ∧ withinBound p.maxHeight height.toNat = true ∧
      withinBound p.maxAddr nAddr = true := by
  simp only [AcceptedGeometry, geometryOf_ok_iff, withinBound_iff, Int.toNat_le, and_true]

/-- The geometry comes first. -/
theorem constructCfg_of_bad_geometry (h : ¬AcceptedGeometry p width height nAddr orient) :
    constructCfg p fbW fbH width height nAddr orient mirror pin cs = .error .invalidGeometry := by
  rw [acceptedGeometry_iff mirror] at h
  rcases hg : geometryOf width height nAddr orient mirror with e | g
  · rw [constructCfg, hg, geometryOf_error hg]
  · obtain ⟨-, rfl⟩ := geometryOf_ok_iff.1 hg
    have hbounds : (withinBound p.maxWidth width.toNat && withinBound p.maxHeight height.toNat
        && withinBound p.maxAddr nAddr) = false := by
      simpa [hg, and_assoc] using h
    simp only [constructCfg, hg, hbounds]
    rfl

/-- The format comes second. -/
theorem constructCfg_of_bad_format (h : AcceptedGeometry p width height nAddr orient) (hcs : 3 ≤ cs) :
    constructCfg p fbW fbH width height nAddr orient mirror pin cs = .error .unsupportedFormat := by
  obtain ⟨hg, hw, hh, ha⟩ := (acceptedGeometry_iff mirror).1 h
  simp [constructCfg, hg, hw, hh, ha, Format.ofCode_of_le hcs]

/-- The dimensions among the operands come third. -/
theorem constructCfg_of_bad_dimensions (h : AcceptedGeometry p width height nAddr orient)
    (hdim : (fbW : Int) ≠ width ∨ (fbH : Int) ≠ height) :
    constructCfg p fbW fbH width height nAddr orient mirror pin f.code.toNat = .error .geometryMismatch := by
  obtain ⟨hg, hw, hh, ha⟩ := (acceptedGeometry_iff mirror).1 h
  simp [constructCfg, hg, hw, hh, ha, hdim]

/-- With all three checks passed CONSTRUCT would store its operands, and the table the pinout operand names. -/
theorem constructCfg_of_accepted (h : AcceptedGeometry p fbW fbH nAddr orient) :
    constructCfg p fbW fbH fbW fbH nAddr orient mirror pin f.code.toNat =
      .ok ⟨fbW, fbH, nAddr, orient, mirror, f,
        Cfg.resolvePinout ⟨fbW, fbH, nAddr, orient, mirror, f, ⟨0, 0, [], []⟩⟩ pin⟩ := by
  obtain ⟨hg, hw, hh, ha⟩ := (acceptedGeometry_iff mirror).1 h
  exact constructCfg_of_geometryOf hg hw hh ha (by cases pin <;> rfl)

/-! ### What CONSTRUCT does with their outcome -/

theorem exec_construct_of_error (hen : s.constructEnabled = true)
    (hc : constructCfg s.params fbW fbH width height nAddr orient mirror pin cs = .error e) :
    exec (.construct fbW fbH width height nAddr orient mirror pin cs) s = .next { s with result := .code e } := by
  change execConstruct .. = _
  simp [execConstruct, hen, hc, State.answer]

theorem exec_construct_of_cfg (hen : s.constructEnabled = true)
    (hc : constructCfg s.params fbW fbH width height nAddr orient mirror pin cs = .ok c) :
    exec (.construct fbW fbH width height nAddr orient mirror pin cs) s =
      if s.fbSized c.width c.height then
        guarded (c.pinoutOk (c.nlines s.params) c.pinout) .badPinout ((s.startInstance c).answer (.code .ok))
      else .next { s with result := .code .geometryMismatch } := by
  change execConstruct .. = _
  cases hsize : s.fbSized c.width c.height <;> simp [execConstruct, hen, hc, hsize, State.answer]

theorem State.fbSized_iff {w h : Nat} : s.fbSized w h = true ↔ s.fbW = w ∧ s.fbH = h := by
  simp [State.fbSized]

/-- Settles O51: the checks are made in this order, and each returns before the next. -/
theorem constructErrorsInOrder : Obligations.ConstructErrorsInOrder := by
  intro s fbW fbH width height nAddr orient mirror pin cs hl hq good go
  have hen := State.constructEnabled_iff.2 ⟨hl, hq⟩
  refine ⟨fun hbad => ?geometry, fun hgood hcs => ?format, fun hgood hcs hdim => ?dimensions,
    fun hgood hcs hw hh hfbW hfbH pins hpin hbad => ?pinout⟩
  case geometry => exact exec_construct_of_error hen (constructCfg_of_bad_geometry hbad)
  case format => exact exec_construct_of_error hen (constructCfg_of_bad_format hgood hcs)
  case dimensions =>
    obtain ⟨f, rfl⟩ := Format.exists_code_eq hcs
    by_cases hoperands : (fbW : Int) ≠ width ∨ (fbH : Int) ≠ height
    · exact exec_construct_of_error hen (constructCfg_of_bad_dimensions hgood hoperands)
    · obtain ⟨rfl, rfl⟩ : (fbW : Int) = width ∧ (fbH : Int) = height := by simpa using hoperands
      refine (exec_construct_of_cfg hen (constructCfg_of_accepted hgood)).trans (if_neg fun hsize => ?_)
      obtain ⟨hw, hh⟩ := State.fbSized_iff.1 hsize
      simp [hw, hh] at hdim
  case pinout =>
    obtain ⟨f, rfl⟩ := Format.exists_code_eq hcs
    subst hw hh hpin
    refine (exec_construct_of_cfg hen (constructCfg_of_accepted hgood)).trans ?_
    rw [if_pos (State.fbSized_iff.2 ⟨hfbW, hfbH⟩)]
    refine guarded_of_false (Bool.eq_false_iff.2 fun hok => hbad ?_)
    obtain ⟨haddr, hdata, hlines, hnodup⟩ := Cfg.pinoutOk_iff.1 hok
    exact ⟨haddr, hdata, hnodup, hlines⟩

end Machine
end Sys2Proof
end

section
/-! Who writes what (60_exceptions.md R262): the scheduler's micro-steps and the host's commands each keep the other's
fields. -/

namespace Sys2Proof.Machine

variable {s t u : State}

/-- What holds of the state behind a guard holds of the one it lets through. -/
theorem of_guarded_next {P : State → Prop} {ok : Bool} {why : Refusal} (ht : guarded ok why u = .next t) (hu : P u) :
    P t := by
  obtain ⟨-, rfl⟩ := guarded_next ht
  exact hu

/-! ### The scheduler -/

/-- The build and what only the host writes. -/
def State.hostFields (s : State) :=
  (s.params, s.cfg, s.life, s.showcnt, s.stopreq, s.fb, s.fbW, s.fbH, s.fbGen, s.program, s.result)

/-- The host's fields are kept, and so is a frame still waiting: the mailbox may only have been emptied. -/
def State.KeepsHost (s t : State) : Prop :=
  t.hostFields = s.hostFields ∧ (t.pending.valid = true → t.pending = s.pending)

theorem State.KeepsHost.trans (h : s.KeepsHost t) (h' : t.KeepsHost u) : s.KeepsHost u := by
  obtain ⟨hfields, hmailbox⟩ := h
  obtain ⟨hfields', hmailbox'⟩ := h'
  refine ⟨hfields'.trans hfields, fun hv => ?_⟩
  have hkept := hmailbox' hv
  exact hkept.trans (hmailbox (hkept ▸ hv))

theorem State.keepsHost_taken (s : State) : s.KeepsHost s.taken := by
  cases hstart : s.atCycleStart
  · rw [State.taken_of_not_start hstart]
    exact ⟨rfl, fun _ => rfl⟩
  · rw [State.taken_of_start hstart]
    cases hv : s.pending.valid
    · rw [State.take_empty hv]
      exact ⟨rfl, fun _ => rfl⟩
    · rw [State.take_full hv]
      exact ⟨rfl, nofun⟩

theorem State.keepsHost_writeOrTrap {f : State → State} (hf : ∀ s : State, s.KeepsHost (f s)) (s : State) (sig : Sig)
    (dur : Nat) : s.KeepsHost (s.writeOrTrap sig dur f) := by
  obtain ⟨as, n, hw | hw⟩ := s.writeOrTrap_cases sig dur f
  · rw [hw]
    exact hf _
  · rw [hw, State.deviceErrorEntry_eq]
    exact ⟨rfl, nofun⟩

theorem State.keepsHost_nextPhase (s : State) : s.KeepsHost s.nextPhase := ⟨rfl, fun _ => rfl⟩

theorem State.keepsHost_goto (f : Fsm) (s : State) : s.KeepsHost (s.goto f) := ⟨rfl, fun _ => rfl⟩

theorem microStep_keepsHost (ht : microStep s = .next t) : s.KeepsHost t := by
  have hwrite (sig dur) : s.KeepsHost (s.writeOrTrap sig dur State.nextPhase) :=
    State.keepsHost_writeOrTrap State.keepsHost_nextPhase s sig dur
  cases hsel : s.selected with
  | none =>
    rw [microStep_of_selected_none hsel] at ht
    cases ht
    exact ⟨rfl, fun _ => rfl⟩
  | some i =>
    rw [microStep_of_selected hsel] at ht
    rcases State.selected_cases hsel with rfl | rfl | rfl | rfl | rfl | rfl | rfl | rfl
    · exact of_guarded_next ht (State.keepsHost_goto ..)
    · exact of_guarded_next ht
        (s.keepsHost_taken.trans (State.keepsHost_writeOrTrap State.keepsHost_nextPhase s.taken ..))
    · exact of_guarded_next ht (hwrite ..)
    · exact of_guarded_next ht (hwrite ..)
    · exact of_guarded_next ht (hwrite ..)
    · exact of_guarded_next ht (State.keepsHost_writeOrTrap (State.keepsHost_goto .rowAdvance) ..)
    · exact of_guarded_next ht ⟨rfl, fun _ => rfl⟩
    · refine of_guarded_next ht ?_
      split
      · rw [State.stopEntry_eq]
        exact ⟨rfl, nofun⟩
      · exact ⟨rfl, fun _ => rfl⟩

/-! ### The host's commands -/

/-- The build, what only the scheduler writes, and the answers it has still to read. -/
def State.schedulerFields (s : State) :=
  (s.params, s.out, s.trace, s.displayed, s.active, s.pk, s.u, s.dw, s.answers)

/-- The scheduler position (10_state.md R24). -/
def State.position (s : State) := (s.fsm, s.row, s.k, s.phase)

/-- The scheduler's fields and its position are kept. -/
def State.KeepsScheduler (s t : State) : Prop :=
  t.schedulerFields = s.schedulerFields ∧ t.position = s.position

/-- A CONSTRUCT that completes returns an error or establishes the instance. -/
theorem exec_construct_next {fbW fbH : Nat} {width height : Int} {nAddr : Nat} {orient : Orient} {mirror : Bool}
    {pin : PinoutArg} {cs : Nat} (ht : exec (.construct fbW fbH width height nAddr orient mirror pin cs) s = .next t) :
    (∃ e, t = s.answer (.code e)) ∨ s.life ≠ .constructed ∧ ∃ c, t = (s.startInstance c).answer (.code .ok) := by
  cases hen : s.constructEnabled
  · rw [exec_construct_of_not_enabled hen] at ht
    cases ht
  rcases hc : constructCfg s.params fbW fbH width height nAddr orient mirror pin cs with e | c
  · rw [exec_construct_of_error hen hc] at ht
    cases ht
    exact .inl ⟨e, rfl⟩
  · rw [exec_construct_of_cfg hen hc] at ht
    split at ht
    · exact .inr ⟨(State.constructEnabled_iff.1 hen).1, c, (guarded_next ht).2⟩
    · cases ht
      exact .inl ⟨_, rfl⟩

/-- A SHOW that completes reports an error or publishes. -/
theorem exec_showFrame_next (ht : exec .showFrame s = .next t) :
    t = s.reportError ∨ t = s.publish.answer (.code .ok) := by
  cases he : s.errflag
  · exact .inr (eq_publish_of_exec_showFrame he ht)
  · cases hen : s.commandEnabled
    · rw [exec_showFrame_of_not_enabled hen] at ht
      cases ht
    · rw [exec_showFrame_of_errflag hen he] at ht
      cases ht
      exact .inl rfl

theorem exec_fbwrite_keepsScheduler {x y ch : Nat} {v : Byte} (ht : exec (.fbwrite x y ch v) s = .next t) :
    s.KeepsScheduler t := by
  cases hq : s.stopreq
  · rw [exec_fbwrite hq] at ht
    exact of_guarded_next ht ⟨rfl, rfl⟩
  · rw [exec_fbwrite_of_stopreq hq] at ht
    cases ht

theorem exec_fbread_keepsScheduler {x y ch : Nat} (ht : exec (.fbread x y ch) s = .next t) : s.KeepsScheduler t := by
  cases hq : s.stopreq
  · rw [exec_fbread hq] at ht
    exact of_guarded_next ht ⟨rfl, rfl⟩
  · rw [exec_fbread_of_stopreq hq] at ht
    cases ht

theorem State.keepsScheduler_reportError (s : State) : s.KeepsScheduler s.reportError := by
  unfold State.reportError
  split <;> exact ⟨rfl, rfl⟩

/-- A host command keeps the scheduler's fields, and its position but for the CONSTRUCT that establishes an instance. -/
theorem exec_keepsScheduler_or_startInstance {i : Instr} (hi : (encode i).isSome ∨ i = .stopAck)
    (ht : exec i s = .next t) :
    s.KeepsScheduler t ∨ s.life ≠ .constructed ∧ ∃ c, t = (s.startInstance c).answer (.code .ok) := by
  rcases hi with hi | rfl
  · cases i
    case construct =>
      rcases exec_construct_next ht with ⟨e, rfl⟩ | hstart
      · exact .inl ⟨rfl, rfl⟩
      · exact .inr hstart
    case showFrame =>
      rcases exec_showFrame_next ht with rfl | rfl
      · exact .inl s.keepsScheduler_reportError
      · exact .inl ⟨rfl, rfl⟩
    case stopReq => exact .inl (of_guarded_next ht ⟨rfl, rfl⟩)
    case poll => exact .inl (of_guarded_next ht s.keepsScheduler_reportError)
    case fbwrite => exact .inl (exec_fbwrite_keepsScheduler ht)
    case fbread => exact .inl (exec_fbread_keepsScheduler ht)
    case cmdReserved6 | cmdReserved7 => cases ht
    case fmtPix888 | fmtRgb565 | fmtRgb888 | fmtRgb888packed | enumErr | enumFsm =>
      cases ht
      exact .inl ⟨rfl, rfl⟩
    all_goals cases hi
  · exact .inl (of_guarded_next ht s.endInstance.keepsScheduler_reportError)

/-- Settles O58: a micro-step keeps the host's fields, and a command the scheduler's, with a new instance at position 0. -/
theorem eachContextWritesItsOwnState : Obligations.EachContextWritesItsOwnState := by
  refine ⟨fun s t ht => ?scheduler, fun s t i hi ht => ?host⟩
  case scheduler =>
    obtain ⟨hfields, hmailbox⟩ := microStep_keepsHost ht
    simp only [State.hostFields, Prod.mk.injEq] at hfields
    obtain ⟨hparams, hcfg, hlife, hcnt, hstop, hfb, hfbW, hfbH, hgen, hprogram, hresult⟩ := hfields
    exact ⟨hparams, hcfg, hlife, hcnt, hstop, hfb, hfbW, hfbH, hgen, hprogram, hresult, hmailbox⟩
  case host =>
    rcases exec_keepsScheduler_or_startInstance hi ht with ⟨hfields, hposition⟩ | ⟨hl, c, rfl⟩
    · simp only [State.schedulerFields, Prod.mk.injEq] at hfields
      obtain ⟨hparams, hout, htrace, hdisplayed, hactive, hpk, hu, hdw, hanswers⟩ := hfields
      exact ⟨hparams, hout, htrace, hdisplayed, hactive, hpk, hu, hdw, hanswers, .inl hposition⟩
    · exact ⟨rfl, rfl, rfl, rfl, rfl, rfl, rfl, rfl, rfl, .inr ⟨hl, rfl, rfl⟩⟩

end Sys2Proof.Machine
end

section
/-! Reserved codes and words cut short (60_exceptions.md R250, 30_encoding.md R100, R103; logs 6, 31), and the codes
there are. -/

namespace Sys2Proof

/-! ### Codes that stand for nothing -/

theorem ErrCode.ofCode_of_le {n : Nat} (h : 5 ≤ n) : ErrCode.ofCode n = none := by
  obtain ⟨m, rfl⟩ := Nat.exists_eq_add_of_le' h
  rfl

theorem Fsm.ofCode_of_le {n : Nat} (h : 4 ≤ n) : Fsm.ofCode n = none := by
  obtain ⟨m, rfl⟩ := Nat.exists_eq_add_of_le' h
  rfl

theorem readCode_of_none {α : Type} {ofCode : Nat → Option α} {e : DecodeError} {b : Byte} {bs : List Byte}
    (h : ofCode b.toNat = none) : readCode ofCode e (b :: bs) = .error e := by
  simp only [readCode, readByte, bind, Except.bind, h]

theorem decodeCommand_of_high_bits {b : Byte} {bs : List Byte} (h : 8 ≤ b.toNat) :
    decodeCommand (b :: bs) = .error .highBits := by
  obtain ⟨n, hn⟩ := Nat.exists_eq_add_of_le' h
  simp only [decodeCommand, readByte, bind, Except.bind, hn]

/-! ### Words cut short -/

/-- Had the decoder answered anything but that the bytes ran out, it would answer the same on the whole encoding, where it
leaves no byte. -/
theorem decode_of_cut_short {i : Instr} {p : Parcel} {bs rest : List Byte} (h : encode i = some p)
    (hp : p.bytes = bs ++ rest) (hrest : rest ≠ []) : decode p.space bs = .error .truncated := by
  have hwhole := decodeOfEncodeIsTheInstruction i p h
  rw [hp] at hwhole
  obtain ⟨hok, herr⟩ := decode_prefixStable p.space bs rest
  rcases hd : decode p.space bs with e | ⟨j, r⟩
  · by_contra hne
    have hfails := herr e hd (by simpa using hne)
    rw [hwhole] at hfails
    cases hfails
  · have hleft := hok j r hd
    simp [hwhole, hrest] at hleft

/-- Settles O10: each reserved code falls through the cases of its reader, and a word cut short runs out. -/
theorem reservedCodesAreRejected : Obligations.ReservedCodesAreRejected := by
  refine ⟨fun b bs h => decodeCommand_of_high_bits h, fun b bs h => ?error, fun b bs h => ?fsm, fun sp => ?empty,
    fun i p bs rest h hp hrest => decode_of_cut_short h hp hrest⟩
  case error => simp only [decode, readCode_of_none (ErrCode.ofCode_of_le h), bind, Except.bind]
  case fsm => simp only [decode, readCode_of_none (Fsm.ofCode_of_le h), bind, Except.bind]
  case empty => cases sp <;> rfl

namespace Machine

/-- Settles O14: a code is its number, and a line event is the triple wherever the record fits. -/
theorem enumerationCodes : Obligations.EnumerationCodes := fun _ =>
  ⟨rfl, rfl, rfl, rfl, rfl, rfl, rfl, rfl, rfl, rfl, rfl, rfl,
    fun _ _ _ hl haddr hdata => withInstance_of hl (Cfg.sigFits_of_lt haddr hdata)⟩

end Machine
end Sys2Proof
end
